-- ==== Sys2Proof/Word.lean ====
section
/-! DEFINITION. Machine words, and sparse tables keyed by a number. -/

namespace Sys2Proof

/-- A G register, a control register, an operand. -/
abbrev Word := BitVec 64

abbrev Byte := BitVec 8

/-- A V register (R207). -/
abbrev Vec := BitVec 2048

/-- A sparse table: the entry listed first for a key counts, an unlisted key reads as the default its reader names. -/
abbrev Tab (α : Type) := List (Nat × α)

/-- The entry of `k`, or `d`. -/
def Tab.get {α : Type} (t : Tab α) (k : Nat) (d : α) : α :=
  match t with
  | [] => d
  | (j, v) :: r => if j = k then v else Tab.get r k d

/-- Sets the entry of `k`, in place where there is one. -/
def Tab.set {α : Type} (t : Tab α) (k : Nat) (v : α) : Tab α :=
  match t with
  | [] => [(k, v)]
  | (j, w) :: r => if j = k then (k, v) :: r else (j, w) :: Tab.set r k v

@[simp] theorem Tab.get_nil {α : Type} (k : Nat) (d : α) : Tab.get [] k d = d := rfl

theorem Tab.get_set {α : Type} (t : Tab α) (k j : Nat) (v d : α) :
    (t.set k v).get j d = if k = j then v else t.get j d := by
  induction t with
  | nil => simp [Tab.set, Tab.get]
  | cons p r ih =>
    obtain ⟨i, w⟩ := p
    by_cases h : i = k
    · subst h; by_cases hj : i = j <;> simp [Tab.set, Tab.get, hj]
    · by_cases hj : i = j
      · subst hj; simp [Tab.set, Tab.get, h, Ne.symm h]
      · simp [Tab.set, Tab.get, h, hj, ih]

@[simp] theorem Tab.get_set_self {α : Type} (t : Tab α) (k : Nat) (v d : α) : (t.set k v).get k d = v := by
  simp [Tab.get_set]

theorem Tab.get_set_of_ne {α : Type} (t : Tab α) {k j : Nat} (v d : α) (h : k ≠ j) :
    (t.set k v).get j d = t.get j d := by
  simp [Tab.get_set, h]

theorem Tab.set_set {α : Type} (t : Tab α) (k : Nat) (v w : α) : (t.set k v).set k w = t.set k w := by
  induction t with
  | nil => simp [Tab.set]
  | cons p r ih =>
    obtain ⟨i, x⟩ := p
    by_cases h : i = k <;> simp [Tab.set, h, ih]

end Sys2Proof
end

