-- ==== Sys2Proof/Syntax.lean ====
section
/-! DEFINITION. The steps of the part, one constructor of `Instr` for each row of the opcode table, with the operand
records they carry. Operands stay as the format's fields (R204); `WellFormed` says which values an entry admits. -/

namespace Sys2Proof

/-- A condition code of CMP, CMPI and VCMP (R220, R232). -/
inductive Cond | eq | ne | lt | ge | ltn | gen
  deriving DecidableEq, Repr

/-- A lane width (R278). -/
inductive Width | i8 | i16 | i32 | i64
  deriving DecidableEq, Repr

/-- A store, acquire-load or release-store size (R253, R254). -/
inductive MemSize | b1 | b2 | b4 | b8
  deriving DecidableEq, Repr

/-- A form of LD (R252). -/
inductive LdKind | i8 | i16 | i32 | i64 | n8 | n16 | n32
  deriving DecidableEq, Repr

/-- A scope (R118). -/
inductive Scope | cl | dv | sy
  deriving DecidableEq, Repr

/-- A memory order (R119). -/
inductive Order | rlx | acq | rel | ar
  deriving DecidableEq, Repr

/-- An ATOM operation (R260). -/
inductive AtomOp | add | min | max | and | or | xor | swap
  deriving DecidableEq, Repr

/-- A TRI operation: slot, guard predicate, the D, A and B fields with the B bits of A and B, and the extension word
when the slot is coded 11 (R203, R204). -/
structure Tri where
  slot : Nat
  pred : Nat
  d : Nat
  ba : Bool
  a : Nat
  bb : Bool
  b : Nat
  ext : Option Nat
  deriving DecidableEq, Repr

/-- An IMM operation: `imm` is the signed value of IMM7, or of the extension word when `long` (R204, R225). -/
structure ImmF where
  slot : Nat
  pred : Nat
  d : Nat
  ba : Bool
  a : Nat
  imm : Int
  long : Bool
  deriving DecidableEq, Repr

/-- A LAND operation: `land` is the landing cycle N and `disp` the byte displacement (R204, R213, R251). -/
structure LandF where
  slot : Nat
  pred : Nat
  d : Nat
  ba : Bool
  a : Nat
  land : Nat
  disp : Int
  long : Bool
  deriving DecidableEq, Repr

/-- A STORE operation (R204, R251). -/
structure StoreF where
  slot : Nat
  pred : Nat
  src : Nat
  ba : Bool
  a : Nat
  bs : Bool
  off : Int
  long : Bool
  deriving DecidableEq, Repr

/-- A DISP operation: `disp` counts words (R204, R242). -/
structure DispF where
  slot : Nat
  pred : Nat
  disp : Int
  long : Bool
  deriving DecidableEq, Repr

/-- A NONE operation (R204). -/
structure NoneF where
  slot : Nat
  pred : Nat
  deriving DecidableEq, Repr

/-- An engine context of a core, or the package's collective engine (R132). -/
inductive Engine | ch (n : Nat) | mx | grid | wp (n : Nat) | coll
  deriving DecidableEq, Repr

/-- A control-port command: the issuing port (0 A, 1 B), CMD.QUEUE and the operand snapshot (R196). -/
structure Cmd where
  port : Nat
  queue : Nat
  op0 : Nat
  op1 : Nat
  op2 : Nat
  op3 : Nat
  deriving DecidableEq, Repr

/-- A put or get at its target (R82-R85, R325): `data` holds each byte with its poison, and nothing for a get. -/
structure WinPacket where
  win : Nat
  offset : Nat
  len : Nat
  data : List (Byte × Bool)
  srcPkg : Nat
  srcCore : Nat
  srcWp : Nat
  num : Nat
  deriving DecidableEq, Repr

/-- What a fabric packet carries (R380): a window request, a response, an acknowledgement, a collective piece (R390), or
a control message of R385: a link's death with the package that reports it, tables to stage, a confirmation, the switch
order. `putPart` and `dataPart` are a put and a get's data of more than 4 KiB, cut (log entry 42): their place and the
whole length. Of a collective (R389, R390, log entry 23): `piece` holds partials of one 4 KiB piece with their
contributions, `result` its final values or a block, `collAck` says that a member has written a chunk of DST; `run` is the
daymark under which they were made. Of a host bridge (R391): `regWrite` writes a register of a port, `access` is an access
through an aperture, `answer` what it came to. -/
inductive Payload
  | put (p : WinPacket)
  | putPart (p : WinPacket) (pos total : Nat)
  | get (p : WinPacket)
  | getData (core wp num : Nat) (data : List (Byte × Bool))
  | dataPart (core wp num pos total : Nat) (data : List (Byte × Bool))
  | putAck (core wp num : Nat) (poison : Bool)
  | e2eAck (cum : Nat) (got : List Nat)
  | piece (key op ncon run : Nat) (vals : List (Int × Bool))
  | result (key run : Nat) (vals : List (Int × Bool))
  | collAck (group k chunk rank : Nat)
  | report (pkg face link : Nat)
  | stage (d : Nat) (table : List Nat)
  | confirm (pkg : Nat)
  | order (d : Nat)
  | regWrite (port off v : Nat)
  | access (port : Nat) (ordered : Bool) (asid va size : Nat) (data : Option (List Byte)) (tag : Nat)
  | answer (port tag : Nat) (bytes : List Byte) (bad poison : Bool)
  deriving DecidableEq, Repr

/-- A fabric packet (R380): `len` its payload in units of 64 bytes, `mbz` the header's must-be-0 bits, `also` the numbers
(SRC, SDIE, ESEQ) of the packets that a switch has combined into it (log entry 23). -/
structure Packet where
  daymark : Nat
  cls : Nat
  cmb : Bool
  dst : Nat
  src : Nat
  sdie : Nat
  eseq : Nat
  body : Payload
  len : Nat := 0
  mbz : Nat := 0
  also : List (Nat × Nat × Nat) := []
  deriving DecidableEq, Repr

/-- A RISC-V R-type operation (R332, R339). -/
structure RType where
  rd : Nat
  rs1 : Nat
  rs2 : Nat
  deriving DecidableEq, Repr

/-- A RISC-V I-type operation; `imm` is signed for loads and a raw 12-bit selector for Xlyrakcp (R332). -/
structure IType where
  rd : Nat
  rs1 : Nat
  imm : Int
  deriving DecidableEq, Repr

/-- A RISC-V S-type operation. -/
structure SType where
  rs1 : Nat
  rs2 : Nat
  imm : Int
  deriving DecidableEq, Repr

/-- A RISC-V load (LWU and LD on the distributor only). -/
inductive RvLoad | lb | lh | lw | ld | lbu | lhu | lwu
  deriving DecidableEq, Repr

/-- A RISC-V AMO (R130, R430). -/
inductive RvAmo | swap | add | xor | and | or | min | max | minu | maxu
  deriving DecidableEq, Repr

/-- The steps of the part. Rows 0-165 are operations of a bundle slot, the rest are steps of helper and distributor
cores, of the core's pipelines and engines, of memory and fabric, and of the host. -/
inductive Instr
  /-- ADD (R228): Writes the wrapping sum of two G registers. -/
  | add (t : Tri)
  /-- ADDI (R228): Writes a G register plus a sign-extended immediate. -/
  | addi (t : ImmF)
  /-- SUB (R228): Writes the wrapping difference of two operands. -/
  | sub (t : Tri)
  /-- MUL (R228): Writes the low 64 bits of a product, at latency 3. -/
  | mul (t : Tri)
  /-- MULH (R228): Writes the high 64 bits of a signed product. -/
  | mulh (t : Tri)
  /-- MULHN (R228): Writes the high 64 bits of an unsigned product. -/
  | mulhn (t : Tri)
  /-- AND (R228): Writes the bitwise AND of two G registers. -/
  | and (t : Tri)
  /-- ANDI (R228): Writes the bitwise AND of a G register and a sign-extended immediate. -/
  | andi (t : ImmF)
  /-- OR (R228): Writes the bitwise OR of two G registers. -/
  | or (t : Tri)
  /-- ORI (R228): Writes the bitwise OR of a G register and an immediate. -/
  | ori (t : ImmF)
  /-- XOR (R228): Writes the bitwise XOR of two G registers. -/
  | xor (t : Tri)
  /-- XORI (R228): Writes the bitwise XOR of a G register and an immediate. -/
  | xori (t : ImmF)
  /-- ANDN (R228): Writes a AND NOT b. -/
  | andn (t : Tri)
  /-- MIN (R228): Writes the signed smaller of two operands. -/
  | min (t : Tri)
  /-- MINN (R228): Writes the unsigned smaller of two operands. -/
  | minn (t : Tri)
  /-- MAX (R228): Writes the signed larger of two operands. -/
  | max (t : Tri)
  /-- MAXN (R228): Writes the unsigned larger of two operands. -/
  | maxn (t : Tri)
  /-- ABS (R228): Writes the saturated absolute value, setting SAT at -2^63. -/
  | abs (t : Tri)
  /-- MOV (R228): Copies a G register. -/
  | mov (t : Tri)
  /-- MOVI (R228): Writes a sign-extended immediate to a G register. -/
  | movi (t : ImmF)
  /-- SHL (R229): Shifts left by a register amount modulo 64. -/
  | shl (t : Tri)
  /-- SHLI (R229): Shifts left by an immediate amount. -/
  | shli (t : ImmF)
  /-- SHR (R229): Shifts right logically by a register amount. -/
  | shr (t : Tri)
  /-- SHRI (R229): Shifts right logically by an immediate amount. -/
  | shri (t : ImmF)
  /-- SAR (R229): Shifts right arithmetically by a register amount. -/
  | sar (t : Tri)
  /-- SARI (R229): Shifts right arithmetically by an immediate amount. -/
  | sari (t : ImmF)
  /-- ROL (R229): Rotates a G register left. -/
  | rol (t : Tri)
  /-- CLZ (R229): Counts leading zero bits. -/
  | clz (t : Tri)
  /-- CTZ (R229): Counts trailing zero bits. -/
  | ctz (t : Tri)
  /-- POPC (R229): Counts 1 bits. -/
  | popc (t : Tri)
  /-- EXT (R230): Extracts a bit field, sign- or zero-extended. -/
  | ext (t : Tri)
  /-- INS (R230): Inserts a bit field into the destination. -/
  | ins (t : Tri)
  /-- SEL (R231): Selects one of two G registers by a predicate. -/
  | sel (t : Tri)
  /-- CMP (R232): Compares two G registers and writes a predicate. -/
  | cmp (cc : Cond) (t : Tri)
  /-- CMPI (R232): Compares a G register with an immediate and writes a predicate. -/
  | cmpi (cc : Cond) (t : ImmF)
  /-- PAND (R233): ANDs two predicates. -/
  | pand (t : Tri)
  /-- POR (R233): ORs two predicates. -/
  | por (t : Tri)
  /-- PXOR (R233): XORs two predicates. -/
  | pxor (t : Tri)
  /-- PNOT (R233): Inverts a predicate. -/
  | pnot (t : Tri)
  /-- SHRN (R234): Shifts down with nearest-even rounding. -/
  | shrn (t : Tri)
  /-- SHRS (R235): Shifts down with stochastic rounding from a supplied random word. -/
  | shrs (t : Tri)
  /-- SATS (R236): Saturates to a narrower signed or unsigned width. -/
  | sats (t : Tri)
  /-- DIVF (R237): Writes the floor quotient, saturating on division by zero. -/
  | divf (t : Tri)
  /-- REMF (R237): Writes the floor remainder. -/
  | remf (t : Tri)
  /-- RCPN (R238): Writes a normalised reciprocal and its shift to a register pair. -/
  | rcpn (t : Tri)
  /-- RSQN (R239): Writes a normalised reciprocal square root and its shift to a register pair. -/
  | rsqn (t : Tri)
  /-- RND (R241): Draws a random word from M and advances RNGCTR. -/
  | rnd (t : Tri)
  /-- BRA (R242): Branches by displacement with one shadow bundle. -/
  | bra (t : DispF)
  /-- BRC (R242): Branches by displacement, cancelling the shadow bundle. -/
  | brc (t : DispF)
  /-- CALL (R242): Writes the return address to G31 and branches by displacement. -/
  | call (t : DispF)
  /-- BRR (R243): Branches to a register target. -/
  | brr (t : Tri)
  /-- CALLR (R243): Writes a link register and branches to a register target. -/
  | callr (t : Tri)
  /-- RET (R243): Returns to a register target, G31 by default. -/
  | ret (t : Tri)
  /-- LOOP (R247): Starts a software-pipelined loop and sets the loop state and rotation bases. -/
  | loop (t : ImmF)
  /-- LOOPX (R247): Starts a software-pipelined loop with an exit predicate. -/
  | loopx (t : ImmF)
  /-- LD (R252): Loads 1 to 8 bytes into a G register at the named landing. -/
  | ld (z : LdKind) (t : LandF)
  /-- ST (R253): Stores the low bytes of a G register through the store path, relaxed. -/
  | st (z : MemSize) (t : StoreF)
  /-- LDA (R254): Acquire load at a scope. -/
  | lda (sc : Scope) (z : MemSize) (t : LandF)
  /-- STL (R255): Release store at a scope, sent after the causal flush and consuming the declined-store flag. -/
  | stl (sc : Scope) (z : MemSize) (t : StoreF)
  /-- VLD (R256): Loads 256 bytes into a V register. -/
  | vld (t : LandF)
  /-- VST (R256): Stores 256 bytes of a V register as raw bytes. -/
  | vst (t : StoreF)
  /-- VST_DESCRIPTOR (R259): VST with a descriptor access word: a descriptor-bound write with shift, rounding and census
  update. -/
  | vstDescriptor (t : StoreF)
  /-- VLDS (R258): Loads elements through a descriptor into lanes, saturating to the lane width. -/
  | vlds (t : LandF)
  /-- ATOM (R261): Atomic read-modify-write at the location's home, returning the old value. -/
  | atom (op : AtomOp) (sc : Scope) (o : Order) (t : Tri)
  /-- CAS (R261): Compare-and-swap at the location's home, returning the old value. -/
  | cas (sc : Scope) (o : Order) (t : Tri)
  /-- FENCE (R262): Waits for its ordering condition, consumes the declined-store flag and orders accesses. -/
  | fence (sc : Scope) (o : Order) (t : NoneF)
  /-- TLOOK (R263): Looks up a key in the tag table. -/
  | tlook (t : Tri)
  /-- TSET (R263): Installs a tag entry subject to the status rules. -/
  | tset (t : Tri)
  /-- TCLR (R263): Returns and invalidates a tag entry. -/
  | tclr (t : Tri)
  /-- TINV (R263): Invalidates every tag entry and returns the count. -/
  | tinv (t : Tri)
  /-- SPILL (R264): Moves a register value to a spill location. -/
  | spill (t : Tri)
  /-- UNSPILL (R264): Returns a spilled value to its register. -/
  | unspill (t : Tri)
  /-- WAITT (R266): Waits until a timeline counter reaches n, acquires and may trap on poison. -/
  | waitt (t : ImmF)
  /-- READT (R267): Reads a timeline counter without acquiring. -/
  | readt (t : ImmF)
  /-- BARA (R268): Counts one barrier arrival of the logical core and lands a token. -/
  | bara (t : LandF)
  /-- BARW (R268): Waits until a barrier's GEN exceeds a token. -/
  | barw (t : Tri)
  /-- BARM (R268): Reads an 80-byte bitmap and writes it to a barrier's MASK. -/
  | barm (t : Tri)
  /-- CROPEN (R269): Opens a containment region with a handler. -/
  | cropen (t : ImmF)
  /-- CRCLOSE (R269): Waits for the region's stores and closes the innermost region. -/
  | crclose (t : NoneF)
  /-- TRAP (R270): Takes the software trap with a code. -/
  | trap (t : ImmF)
  /-- TRACK (R270): Closes the critical window. -/
  | track (t : NoneF)
  /-- TRET (R350): Returns from a handler and reissues the trapping bundle. -/
  | tret (t : NoneF)
  /-- CSRR (R271): Reads a control register. -/
  | csrr (t : ImmF)
  /-- CSRW (R271): Writes a control register. -/
  | csrw (t : ImmF)
  /-- CSRS (R271): Sets bits of a control register. -/
  | csrs (t : ImmF)
  /-- CSRC (R271): Clears bits of a control register. -/
  | csrc (t : ImmF)
  /-- STAGE_CSR_WRITE (R336): A CSRW of STAGE above COUNT advances it as a release, consuming the declined-store flag. -/
  | stageCsrWrite (t : ImmF)
  /-- CBTBASE_WRITE (R110): A write of CBTBASE with V = 1 reads and latches the codebook table before retiring. -/
  | cbtbaseWrite (t : ImmF)
  /-- EVPOST (R272): Posts an event to the owning control port after a causal flush. -/
  | evpost (t : Tri)
  /-- YIELD (R273): Leaves the context waiting for k counted cycles. -/
  | yield (t : ImmF)
  /-- END (R274): Ends the task after flushes, consuming the declined-store flag and freeing the context. -/
  | endTask (t : NoneF)
  /-- ICINV (R275): Invalidates instruction fetch over a range on every die. -/
  | icinv (t : Tri)
  /-- LSUPD (R277): Updates the loss scale from overflow and SAT and writes the skip predicate. -/
  | lsupd (t : Tri)
  /-- VADD (R282): Lane-wise wrapping addition. -/
  | vadd (w : Width) (t : Tri)
  /-- VSUB (R282): Lane-wise wrapping subtraction. -/
  | vsub (w : Width) (t : Tri)
  /-- VADDS (R282): Lane-wise saturating addition. -/
  | vadds (w : Width) (t : Tri)
  /-- VSUBS (R282): Lane-wise saturating subtraction. -/
  | vsubs (w : Width) (t : Tri)
  /-- VMUL (R282): Lane-wise low product. -/
  | vmul (w : Width) (t : Tri)
  /-- VMULH (R282): Lane-wise high product. -/
  | vmulh (w : Width) (t : Tri)
  /-- VMULSH (R282): Lane-wise product with a Q16 scalar, rounded and saturated. -/
  | vmulsh (w : Width) (t : Tri)
  /-- VMAC (R282): Lane-wise saturating multiply-accumulate. -/
  | vmac (w : Width) (t : Tri)
  /-- VMIN (R282): Lane-wise minimum. -/
  | vmin (w : Width) (t : Tri)
  /-- VMAX (R282): Lane-wise maximum. -/
  | vmax (w : Width) (t : Tri)
  /-- VABS (R282): Lane-wise saturating absolute value. -/
  | vabs (w : Width) (t : Tri)
  /-- VNEG (R282): Lane-wise saturating negation. -/
  | vneg (w : Width) (t : Tri)
  /-- VAND (R282): Lane-wise AND. -/
  | vand (w : Width) (t : Tri)
  /-- VOR (R282): Lane-wise OR. -/
  | vor (w : Width) (t : Tri)
  /-- VXOR (R282): Lane-wise XOR. -/
  | vxor (w : Width) (t : Tri)
  /-- VNOT (R282): Lane-wise NOT. -/
  | vnot (w : Width) (t : Tri)
  /-- VSHL (R283): Lane-wise left shift by per-lane amounts. -/
  | vshl (w : Width) (t : Tri)
  /-- VSHR (R283): Lane-wise logical right shift. -/
  | vshr (w : Width) (t : Tri)
  /-- VSAR (R283): Lane-wise arithmetic right shift. -/
  | vsar (w : Width) (t : Tri)
  /-- VSHRS (R284): Lane-wise stochastic shift-down, drawing one random word per lane. -/
  | vshrs (w : Width) (t : Tri)
  /-- VSHRN (R283): Lane-wise nearest-even shift-down. -/
  | vshrn (w : Width) (t : Tri)
  /-- VSAT (R285): Lane-wise saturation to a narrower width. -/
  | vsat (w : Width) (t : Tri)
  /-- VWID (R286): Widens half the lanes to double width. -/
  | vwid (w : Width) (t : Tri)
  /-- VPACK (R286): Packs two registers into narrower saturated lanes. -/
  | vpack (w : Width) (t : Tri)
  /-- VCMP (R287): Lane-wise compare writing a K mask. -/
  | vcmp (cc : Cond) (w : Width) (t : Tri)
  /-- VSEL (R288): Selects lanes of two registers by a mask. -/
  | vsel (w : Width) (t : Tri)
  /-- VBCAST (R289): Broadcasts a G register to every lane. -/
  | vbcast (w : Width) (t : Tri)
  /-- VPERM (R289): Permutes lanes by per-lane indices. -/
  | vperm (w : Width) (t : Tri)
  /-- VSHUF (R289): Applies a fixed shuffle code. -/
  | vshuf (w : Width) (t : Tri)
  /-- VROT (R289): Rotates lanes by a scalar amount. -/
  | vrot (w : Width) (t : Tri)
  /-- VMOVG (R290): Moves one lane to a G register. -/
  | vmovg (w : Width) (t : Tri)
  /-- VINS (R290): Inserts a G register into one lane. -/
  | vins (w : Width) (t : Tri)
  /-- VREDADD (R291): Sums active lanes by the fixed tree into every i64 lane. -/
  | vredadd (w : Width) (t : Tri)
  /-- VREDMAX (R291): Maximum of active lanes into every i64 lane. -/
  | vredmax (w : Width) (t : Tri)
  /-- VREDMIN (R291): Minimum of active lanes into every i64 lane. -/
  | vredmin (w : Width) (t : Tri)
  /-- VCENSUS (R292): Computes the minimum redundant sign bits of active lanes. -/
  | vcensus (w : Width) (t : Tri)
  /-- VEXP2 (R293): Computes 2^x per lane in Q1.15. -/
  | vexp2 (w : Width) (t : Tri)
  /-- VLUT (R294): Looks up each lane's low byte in a table register. -/
  | vlut (w : Width) (t : Tri)
  /-- VHAD (R295): Applies the Hadamard transform to lane groups. -/
  | vhad (w : Width) (t : Tri)
  /-- VCBDEC (R296): Decodes VQ2 indices into weights. -/
  | vcbdec (w : Width) (t : Tri)
  /-- VCLZ (R297): Counts leading zeros per lane. -/
  | vclz (w : Width) (t : Tri)
  /-- VIOTA (R297): Writes the count of active lanes below each active lane. -/
  | viota (w : Width) (t : Tri)
  /-- KAND (R297): ANDs two K masks. -/
  | kand (t : Tri)
  /-- KOR (R297): ORs two K masks. -/
  | kor (t : Tri)
  /-- KNOT (R297): Inverts a K mask. -/
  | knot (t : Tri)
  /-- MLDN (R311): Loads a stationary tile from a stream as stored. -/
  | mldn (t : Tri)
  /-- MLDW (R311): Loads a stationary tile from a stream transposed. -/
  | mldw (t : Tri)
  /-- MLDS (R312): Loads a 2:4 sparse stationary tile with metadata. -/
  | mlds (t : Tri)
  /-- MCPS (R314): Writes the cell-operation pattern CPAT. -/
  | mcps (t : ImmF)
  /-- MRUN (R315): Runs moving rows through the array into an ACC tile. -/
  | mrun (t : Tri)
  /-- MDRAIN (R316): Drains ACC rows to a write stream or vector registers. -/
  | mdrain (t : Tri)
  /-- MCLR (R317): Clears an ACC tile. -/
  | mclr (t : Tri)
  /-- MACCMV (R317): Moves or adds one ACC tile into another. -/
  | maccmv (t : Tri)
  /-- MREGROW (R318): Swaps candidate weights into a sparse stationary tile and pushes the result. -/
  | mregrow (t : Tri)
  /-- MPOIS (R317): Reads half of an ACC tile's row poison mask. -/
  | mpois (t : Tri)
  /-- SBIND (R305): Binds a stream register to a descriptor and feed. -/
  | sbind (t : Tri)
  /-- SPAT (R306): Reads and attaches a packing pattern to an unbound stream. -/
  | spat (t : Tri)
  /-- SFREE (R307): Unbinds a stream after earlier commands finish with it. -/
  | sfree (t : Tri)
  /-- SSTAT (R308): Returns a stream's status word. -/
  | sstat (t : Tri)
  /-- DSET (R320): Loads a descriptor from a 128-byte image. -/
  | dset (t : Tri)
  /-- DGET (R320): Reads a 64-bit word of a descriptor. -/
  | dget (t : Tri)
  /-- DSETF (R320): Writes one descriptor field. -/
  | dsetf (t : Tri)
  /-- DGETF (R320): Reads one descriptor field. -/
  | dgetf (t : Tri)
  /-- CPY (R321): Copies between descriptors as a descriptor-bound write on a channel. -/
  | cpy (t : Tri)
  /-- CPYM (R322): Copies into a command-fed stream and then issues a follow-on matrix command. -/
  | cpym (t : Tri)
  /-- STAGE (R323): Advances the core's STAGE counter as a release at .cl. -/
  | stage (t : ImmF)
  /-- GRIDLD (R324): Gathers interpolated grid features into vector registers. -/
  | gridld (t : Tri)
  /-- GRIDSC (R324): Scatters weighted gradient adds into the gradient planes. -/
  | gridsc (t : Tri)
  /-- WPUT (R325): Puts local bytes into a remote window. -/
  | wput (t : Tri)
  /-- WGET (R325): Gets bytes from a remote window into local memory. -/
  | wget (t : Tri)
  /-- COLL (R326): Issues a collective from a control block to the collective engine. -/
  | coll (t : Tri)
  /-- SPAWN (R327): Sends a task packet to the core that the target address names. -/
  | spawn (t : Tri)
  /-- LX_CPY (R333): Issues a copy from a copy control block on a channel. -/
  | lxCpy (r : RType)
  /-- LX_SBIND (R332): Selects a stream of a context for the helper. -/
  | lxSbind (r : RType)
  /-- LX_SPUSH (R334): Pushes four bytes to a helper-fed read stream. -/
  | lxSpush (r : RType)
  /-- LX_SPOP (R334): Pops four bytes from a helper-fed write stream. -/
  | lxSpop (r : RType)
  /-- LX_SSTAT (R332): Reads the selected stream's status word. -/
  | lxSstat (r : RType)
  /-- LX_STAGE (R332): Advances STAGE as a release at .cl. -/
  | lxStage (r : RType)
  /-- LX_XBASE (R332): Sets XBASE of the helper window. -/
  | lxXbase (r : RType)
  /-- LX_EV (R332): Posts an event as EVPOST does. -/
  | lxEv (r : RType)
  /-- LX_END (R332): Flushes and ends the helper program. -/
  | lxEnd (r : RType)
  /-- LX_WAITT (R335): Waits on a timeline counter, acquires and reports poison in rd. -/
  | lxWaitt (i : IType)
  /-- LX_READT (R332): Reads the low 32 bits of a timeline counter. -/
  | lxReadt (i : IType)
  /-- LX_READTH (R332): Reads the high 32 bits of a timeline counter. -/
  | lxReadth (i : IType)
  /-- LX_BIND (R340): Enqueues an unreleased bind record on a core and returns a ticket. -/
  | lxBind (r : RType)
  /-- LX_REL (R340): Releases or cancels an enqueued bind by ticket. -/
  | lxRel (r : RType)
  /-- LX_JWR (R341): Appends a journal entry atomically. -/
  | lxJwr (r : RType)
  /-- LX_ASID (R339): Sets the distributor's current ASID. -/
  | lxAsid (r : RType)
  /-- LX_INVAL (R339): Invalidates translations of the current ASID over a range. -/
  | lxInval (r : RType)
  /-- LX_MARK (R339): Marks a page migrating at its serving MTU. -/
  | lxMark (r : RType)
  /-- LX_ANSW (R339): Answers retry or decline for a parked page. -/
  | lxAnsw (r : RType)
  /-- LX_EVGET (R344): Takes the oldest event-queue record. -/
  | lxEvget (r : RType)
  /-- LX_EVPUT (R339): Posts a port record to a control port as a release. -/
  | lxEvput (r : RType)
  /-- LX_KSCAN (R343): Clears and returns the lowest pending-kick bit. -/
  | lxKscan (r : RType)
  /-- RISCV_LOAD (R331): A helper or distributor base RISC-V load, relaxed at .dv, faulting on poisoned or declined
  data. -/
  | riscvLoad (z : RvLoad) (i : IType)
  /-- RISCV_STORE (R331): A helper or distributor base RISC-V store, relaxed at .dv, setting the declined flag on a
  decline. -/
  | riscvStore (z : MemSize) (i : SType)
  /-- RISCV_AMO (R430): A distributor AMO executes as ATOM.op.dv and records AMOADDR, AMOOLD and AMOJSEQ. -/
  | riscvAmo (op : RvAmo) (dbl aq rl : Bool) (r : RType)
  /-- RISCV_FENCE (R130): A helper or distributor FENCE maps to FENCE.dv.acq, .rel or .ar and consumes the helper's
  declined flag. -/
  | riscvFence (fm pred succ : Nat)
  /-- WFI (R344): A distributor core waits for interrupt until a new event record or a kick wakes it. -/
  | wfi
  /-- YIELD_EXPIRY (R273): The YIELD count expires and the context becomes ready. -/
  | yieldExpiry (core ctx : Nat)
  /-- FIXED_RESULT (R217): A fixed-latency result is written at its result cycle and its destination becomes full. -/
  | fixedResult (core ctx : Nat)
  /-- RETURN_ARRIVAL (R62): Returning data reaches the core and takes a landing-buffer entry or is written at once. -/
  | returnArrival (id : Nat)
  /-- LANDING (R214): At the landing cycle the held data is written to its destination. -/
  | landing (core ctx : Nat)
  /-- LATE_ARRIVAL (R215): Late data arrives, is written and the frozen domain resumes. -/
  | lateArrival (id : Nat)
  /-- LOSS_COUNT_DUE (R162): A ready context's loss count reaches 255 and it falls due at the merge stage. -/
  | lossCountDue (core ctx : Nat)
  /-- ENGINE_COMPLETION (R132): An engine command completes and its timeline counter, descriptor updates and flags
  advance. -/
  | engineCompletion (core : Nat) (e : Engine)
  /-- TASK_BIND (R164): The run queue's head binds to the lowest idle context when its conditions hold. -/
  | taskBind (core : Nat)
  /-- SPAWN_DELIVERY (R169): A spawn packet enters its target run queue when there is room. -/
  | spawnDelivery
  /-- HELPER_START (R330): A loader or storer starts a program from its start queue. -/
  | helperStart (core : Nat) (storer : Bool)
  /-- SCRATCHPAD_ACCESS (R45): A bank unit executes one scratchpad access in arbitration order. -/
  | scratchpadAccess (id : Nat)
  /-- RING_ACCESS (R66): A ring bank unit executes one access in arrival order. -/
  | ringAccess (id : Nat)
  /-- MTU_ACCESS (R28): The serving MTU translates, parks or forwards an arriving access through the store path. -/
  | mtuAccess (id : Nat)
  /-- TRACKED_PACKET_ARRIVAL (R141): A tracked packet reaches its home die and executes or waits in the hold buffer. -/
  | trackedPacketArrival (id : Nat)
  /-- APPLIED_ACK_SEND (R141): The home die returns APPLIED to a source at least every 64 c while it changes. -/
  | appliedAckSend (home src : Nat)
  /-- APPLIED_ACK_ARRIVAL (R137): An acknowledgement updates ACKED at the source and releases waiting causal flushes. -/
  | appliedAckArrival (src home : Nat)
  /-- WINDOW_PUT_ARRIVAL (R84): A put arrives at the target window and is accepted or rejected. -/
  | windowPutArrival (p : WinPacket)
  /-- WINDOW_PUT_APPLIED (R82): When every byte of a put is applied, COUNT advances and an acknowledgement is sent. -/
  | windowPutApplied (n : Nat)
  /-- WINDOW_GET_ARRIVAL (R83): A get arrives at the target window and is answered or rejected. -/
  | windowGetArrival (p : WinPacket)
  /-- PUT_ACK_ARRIVAL (R83): A put or get acknowledgement arrives at the source put context. -/
  | putAckArrival (core wp num : Nat) (poison : Bool)
  /-- NODE_SELECTION (R183): Die 0 selects an eligible queue's head slot and writes a selection-log entry. -/
  | nodeSelection
  /-- LOG_ENTRY_DISTRIBUTION (R186): A die applies a node log entry and enqueues its own members. -/
  | logEntryDistribution (die : Nat)
  /-- OFFLINE_MAP_APPLY (R187): A die applies a KIND 1 log entry's offline map. -/
  | offlineMapApply (die : Nat)
  /-- TASK_END_RECORD (R188): The distributor takes a task-end record and makes its FAILS and COUNT adds. -/
  | taskEndRecord (die : Nat)
  /-- QUEUE_SUSPEND_BOUNDARY (R189): At a node boundary a pending suspend or destroy takes effect and the save record is
  written. -/
  | queueSuspendBoundary (q : Nat)
  /-- EVENT_RECORD_POST (R344): A record enters the die's event queue when there is room. -/
  | eventRecordPost (die : Nat)
  /-- PORT_RECORD_DELIVERY (R393): A port record is written to the host event ring when there is room and MSI-X is
  signalled. -/
  | portRecordDelivery (port : Nat)
  /-- RELIEF_COPY_DONE (R64): The scratchpad copy completes, LPMAP updates and held accesses are released. -/
  | reliefCopyDone (cl : Nat)
  /-- SCAN_PASS (R363): A scan passes; PASS advances, DIRTY clears and READY is re-evaluated. -/
  | scanPass (cl : Nat)
  /-- SCAN_FAIL (R366): A scan fails; the core is retired, the cluster reduced and TYPE 11 posted. -/
  | scanFail (cl : Nat)
  /-- QUIESCE_REACHED (R369): The package reaches PHASE 2 and posts TYPE 9. -/
  | quiesceReached
  /-- CAPTURE_DONE (R370): A capture completes, setting PENDING and advancing CUR. -/
  | captureDone
  /-- ROLLBACK_RESTORE_DONE (R374): The restore of the committed image completes and PHASE returns to 0. -/
  | rollbackRestoreDone
  /-- SWITCH_FORWARD (R381): A switch forwards, combines or discards a fabric packet by its daymark. -/
  | switchForward (p : Packet)
  /-- FABRIC_PACKET_ARRIVAL (R383): A packet reaches its destination and is accepted once or dropped as a duplicate. -/
  | fabricPacketArrival (p : Packet)
  /-- E2E_ACK_SEND (R383): An end-to-end acknowledgement is sent within 2 µs of a change or after 16 accepted packets. -/
  | e2eAckSend (src sdie : Nat)
  /-- DAYMARK_SWITCH (R385): On the switch order a switch makes the new daymark current, replays and posts TYPE 14. -/
  | daymarkSwitch (d : Nat)
  /-- POWER_ON (R436): The package leaves reset and runs the boot steps. -/
  | powerOn
  /-- REBUILD_DONE (R377): The rebuild of the dead package's image and saved record completes and its status is posted. -/
  | rebuildDone
  /-- STREAM_ELEMENT_ARRIVAL (R303): A channel-fed stream element is appended to the stream buffer, ending a freeze that
  waits for it. -/
  | streamElementArrival (core ctx q : Nat)
  /-- CPYM_FOLLOW_ON (R322): When the CPYM copy's last element has landed, the copy engine issues the follow-on command
  to the matrix engine. -/
  | cpymFollowOn (core ch : Nat)
  /-- KEEPER_LINK_REPORT (R385): A link-death report reaches the daymark keeper, which computes new tables or folds the
  report into the next change. `face` counts the faces of all packages: 8 × package + face. -/
  | keeperLinkReport (face link : Nat)
  /-- STAGING_CONFIRMED (R385): A switch's staging confirmation reaches the keeper, which sends the switch order once
  all switches have confirmed. -/
  | stagingConfirmed (pkg : Nat)
  /-- EXIT_FROM_POWER_GATING (R357): A power-gated core finishes powering up and its first bundle can issue, at most 20
  µs after the resident condition ended. -/
  | exitFromPowerGating (core : Nat)
  /-- LINK_RESEND_LIMIT (R379): A flit failing resend 8 times declares the link dead. -/
  | linkResendLimit (face link : Nat)
  /-- RELIEF_MOVE (R64): An emptied physical core's logical core starts moving to the relief core. -/
  | reliefMove (cl : Nat)
  /-- PAGE_WALK (R27): The MTU completes a table walk after reading entries by physical address. -/
  | pageWalk (asid va : Nat)
  /-- HACT_UNWIND (R352): A HACT write unwinds a halted context. -/
  | hactUnwind (core ctx : Nat)
  /-- HACT_FAIL (R352): A HACT write fails a halted context's task. -/
  | hactFail (core ctx : Nat)
  /-- ROW_FAULT (R73): An LPDDR6 controller reports a row fault to its die's distributor. -/
  | rowFault (die ctl row : Nat)
  /-- PATROL_SCRUB (R73): The 24-hour patrol scrub reads every granule and writes back corrections. -/
  | patrolScrub (die : Nat)
  /-- CXL_PORT_DOWN (R79): A second-tier port goes down; its accesses are declined and events are posted. -/
  | cxlPortDown (port : Nat)
  /-- DISTRIBUTOR_HANDOVER (R338): On a primary failure the relief distributor starts at offset 0. -/
  | distributorHandover (die mcause : Nat)
  /-- DISTRIBUTION_LOST (R338): The relief distributor fails; distribution stops and TYPE 19 is posted. -/
  | distributionLost (die mcause : Nat)
  /-- CLOCK_GATE (R357): A core resident for 4 µs is clock-gated. -/
  | clockGate (core : Nat)
  /-- POWER_GATE (R357): A core resident for 1 ms is power-gated with state retained. -/
  | powerGate (core : Nat)
  /-- FOG_REPORT (R359): A resident period reaching FOGCFG.THR posts a TYPE 8 fog report. -/
  | fogReport (core : Nat)
  /-- ROTATION_STEP (R363): The distributor starts a scan step, withholding binds to the chosen logical core. -/
  | rotationStep (cl : Nat)
  /-- LINK_FLIT (R379): A flit arrives and is checked by CRC, with resend on failure. -/
  | linkFlit (face link : Nat) (crcOk : Bool)
  /-- LINK_LOCK_LOSS (R379): Receiver lock lost for 2 µs declares the link dead. -/
  | linkLockLoss (face link : Nat)
  /-- HEARTBEAT_TIMEOUT (R379): No heartbeat for 10 µs declares the link dead. -/
  | heartbeatTimeout (face link : Nat)
  /-- E2E_ACK_ARRIVAL (R382): An end-to-end acknowledgement frees retry-buffer copies at the source. -/
  | e2eAckArrival (sdie dst cum : Nat) (got : List Nat)
  /-- REPLAY_TIMEOUT (R383): After 500 µs without progress the source replays unacknowledged packets. -/
  | replayTimeout (sdie dst : Nat)
  /-- DAYMARK_STAGE (R385): A switch receives new tables from the keeper and stages them. -/
  | daymarkStage (d : Nat) (table : List Nat)
  /-- KEEPER_TIMEOUT (R385): After 5 ms without the keeper the standby keeper takes over. -/
  | keeperTimeout
  /-- COMBINING_TIMEOUT (R390): A combining entry is forwarded 20 µs after it opened. -/
  | combiningTimeout (key : Nat)
  /-- APERTURE_READ (R392): A host read through a BAR 2 or 4 aperture entry. -/
  | apertureRead (port : Nat) (ordered : Bool) (off size : Nat)
  /-- APERTURE_WRITE (R392): A host write through a BAR 2 or 4 aperture entry. -/
  | apertureWrite (port : Nat) (ordered : Bool) (off : Nat) (data : List Byte)
  /-- BRIDGE_LINK_LOST (R395): The PCIe or bridge link is lost; LAMP freed and port records held. -/
  | bridgeLinkLost (port : Nat)
  /-- LAMP_TAKE (R192): A LAMP write with TAKE takes the LAMP when free. -/
  | lampTake (port : Nat)
  /-- LAMP_DROP (R192): A LAMP write with DROP frees the LAMP held by the writer. -/
  | lampDrop (port : Nat)
  /-- QTAIL_WRITE (R179): A QTAIL write advances TAIL if forward and sets the kick bit. -/
  | qtailWrite (port q v : Nat)
  /-- EVHEAD_WRITE (R393): An EVHEAD write advances the consumed-record index. -/
  | evheadWrite (port v : Nat)
  /-- BRERR_CLEAR (R392): A BRERR write with CLR sets COUNT to 0. -/
  | brerrClear (port : Nat)
  /-- REGISTER_WRITE (R9): A write to any register without its own row sets its RW fields. -/
  | registerWrite (port off v : Nat)
  /-- QUEUE_CREATE (R194): Command 0x10 creates a queue owned by the issuing port. -/
  | queueCreate (c : Cmd)
  /-- QUEUE_DESTROY (R194): Command 0x11 destroys a queue at the next node boundary. -/
  | queueDestroy (c : Cmd)
  /-- QUEUE_SUSPEND (R189): Command 0x12 suspends a queue at a node boundary. -/
  | queueSuspend (c : Cmd)
  /-- QUEUE_RESUME (R189): Command 0x13 reloads the save record and runs the queue. -/
  | queueResume (c : Cmd)
  /-- QUEUE_TRANSFER (R194): Command 0x14 transfers queue ownership to the other port. -/
  | queueTransfer (c : Cmd)
  /-- KICK (R184): Command 0x15 makes die 0 check dependences again. -/
  | kick (c : Cmd)
  /-- OFFLINE_MAP (R187): Command 0x16 requests an offline-map change at the next node boundary. -/
  | offlineMap (c : Cmd)
  /-- CONTEXT_ACTION (R360): Command 0x18 stops a context and unwinds or fails it. -/
  | contextAction (c : Cmd)
  /-- QUIESCE (R369): Command 0x19 stops selection to quiesce the package. -/
  | quiesce (c : Cmd)
  /-- CAPTURE (R370): Command 0x1A writes the image, parity and save record into a safe-tier slot. -/
  | capture (c : Cmd)
  /-- COMMIT (R371): Command 0x1B commits the pending generation. -/
  | commit (c : Cmd)
  /-- ROLLBACK (R373): Command 0x1C fails tasks and restores the committed generation. -/
  | rollback (c : Cmd)
  /-- ASSUME_IDENTITY (R377): Command 0x1D gives a standby the dead package's coordinates and rank. -/
  | assumeIdentity (c : Cmd)
  /-- REBUILD (R377): Command 0x1E rebuilds the dead package's image from parity. -/
  | rebuild (c : Cmd)
  /-- REGISTER_GROUP (R387): Command 0x20 registers a collective group. -/
  | registerGroup (c : Cmd)
  /-- DEREGISTER_GROUP (R387): Command 0x21 frees a group after its collectives complete. -/
  | deregisterGroup (c : Cmd)
  /-- REGISTER_WINDOW (R81): Command 0x22 registers a window table entry. -/
  | registerWindow (c : Cmd)
  /-- DEREGISTER_WINDOW (R86): Command 0x23 disables and, once drained, invalidates a window. -/
  | deregisterWindow (c : Cmd)
  /-- LOAD_OBJECT (R400): Command 0x24 checks, links, writes and relocates a code object. -/
  | loadObject (c : Cmd)
  /-- UNLOAD_OBJECT (R403): Command 0x25 removes an object's symbol-table entries. -/
  | unloadObject (c : Cmd)
  /-- INSTALL_RESIDENT_IMAGE (R409): Command 0x26 installs a certified resident image. -/
  | installResidentImage (c : Cmd)
  /-- PACKAGE_RESET (R438): Command 0x27 posts status and resets the package. -/
  | packageReset (c : Cmd)
  /-- CONFIGURATION_IMAGE_CHANGE (R438): Command 0x28 verifies and stores a new configuration image. -/
  | configurationImageChange (c : Cmd)
  /-- REGISTER_ADDRESS_SPACE (R35): Command 0x30 registers an ASID with its root table. -/
  | registerAddressSpace (c : Cmd)
  /-- TEAR_DOWN_ADDRESS_SPACE (R35): Command 0x31 declines parked accesses, drops TLB entries and unregisters an ASID. -/
  | tearDownAddressSpace (c : Cmd)
  /-- TRANSLATION_INVALIDATE (R30): Command 0x32 invalidates translations over a range. -/
  | translationInvalidate (c : Cmd)
  /-- FAULT_ANSWER (R35): Command 0x33 answers a fault record with retry or decline. -/
  | faultAnswer (c : Cmd)
  /-- PHYSICAL_WRITE (R35): Command 0x34 writes host bytes to a physical range. -/
  | physicalWrite (c : Cmd)
  /-- PHYSICAL_READ (R35): Command 0x35 reads a physical range to host memory. -/
  | physicalRead (c : Cmd)
  /-- UNKNOWN_COMMAND (R194): A write of an unassigned command code fails with status unknown. -/
  | unknownCommand (code : Nat) (c : Cmd)
  /-- GET_VERSION (R440): SPDM request answered through the mailbox. -/
  | getVersion (port : Nat)
  /-- GET_CAPABILITIES (R440): SPDM request answered through the mailbox. -/
  | getCapabilities (port : Nat)
  /-- NEGOTIATE_ALGORITHMS (R440): SPDM request answered through the mailbox. -/
  | negotiateAlgorithms (port : Nat)
  /-- GET_DIGESTS (R440): SPDM request answered through the mailbox. -/
  | getDigests (port : Nat)
  /-- GET_CERTIFICATE (R440): SPDM request answered through the mailbox. -/
  | getCertificate (port : Nat)
  /-- CHALLENGE (R440): SPDM request answered through the mailbox. -/
  | challenge (port : Nat)
  /-- GET_MEASUREMENTS (R440): SPDM request answered from one snapshot of the measurement indices. -/
  | getMeasurements (port : Nat)
  /-- SUPPLY_OUT_OF_RANGE (R441): Input voltage outside 48-54 V holds the package in reset. -/
  | supplyOutOfRange (inRange : Bool)
  /-- THROTTLE_DOWN (R442): Temperature or power above its limit lowers a die's clock and posts TYPE 17. -/
  | throttleDown (die : Nat) (power : Bool)
  /-- THROTTLE_RAISE (R442): After 10 ms without the cause the clock step rises and TYPE 17 is posted. -/
  | throttleRaise (die : Nat) (power : Bool)
  /-- THERMAL_TRIP (R442): At 110 °C the package posts TYPE 18 and power is removed. -/
  | thermalTrip (die celsius : Nat)
  /-- BRIDGE_LINK_RETURN (R395): The lost PCIe or bridge link comes back and the port records held in the event queue
  are delivered. -/
  | bridgeLinkReturn (port : Nat)
  /-- PARITY_RECOMPUTED (R377): The background recomputation of rank m's parity units finishes, within 3 s of
  resumption. -/
  | parityRecomputed
  /-- THRM_READ (R443): A read of THRM returns TMAX and restarts its highest-reading-since-last-read tracking. -/
  | thrmRead (port : Nat)
  deriving DecidableEq, Repr

end Sys2Proof
end

