-- ==== Sys2Proof/Machine/Bits.lean ====
section
/-! DEFINITION. Integer helpers of R11, rounding (R101), the mix function (R103), census (R98), Hadamard blocks (R111),
VQ2 decoding (R107-R109), packing patterns (R112, R113), lanes of a vector register (R278). -/

namespace Sys2Proof.Machine

/-- zx(x, w) of R11. -/
def zx (x : Int) (w : Nat) : Nat := (x % 2 ^ w).toNat

/-- sx(x, w) of R11. -/
def sx (x : Int) (w : Nat) : Int :=
  let u := x % 2 ^ w
  if u < 2 ^ (w - 1) then u else u - 2 ^ w

/-- sat(x, w) of R11. -/
def sat (x : Int) (w : Nat) : Int := min (max x (-(2 ^ (w - 1)))) (2 ^ (w - 1) - 1)

/-- satn(x, w) of R11. -/
def satn (x : Int) (w : Nat) : Int := min (max x 0) (2 ^ w - 1)

/-- Bits [lo + n - 1 : lo] of a number. -/
def fld (x lo n : Nat) : Nat := x / 2 ^ lo % 2 ^ n

/-- Bit `i` of a number. -/
def bit (x i : Nat) : Bool := x / 2 ^ i % 2 = 1

/-- Leading zero bits of the low `w` bits (R11). -/
def clz (x w : Nat) : Nat := if x % 2 ^ w = 0 then w else w - 1 - Nat.log2 (x % 2 ^ w)

/-- Trailing zero bits; `w` when the value is 0 (R229). -/
def ctz (x : Nat) : Nat → Nat
  | 0 => 0
  | w + 1 => if x % 2 = 1 then 0 else ctz (x / 2) w + 1

/-- 1 bits among the low `w` (R229). -/
def popc (x : Nat) : Nat → Nat
  | 0 => 0
  | w + 1 => x % 2 + popc (x / 2) w

/-- shiftdown(x, d, mode) of R101; mode 0 floor, 1 nearest-even, 2 stochastic with `k` usable bits of `r`. -/
def shiftdown (x : Int) (d mode r k : Nat) : Int :=
  if d = 0 then x else
    let q := x / 2 ^ d
    let f := x - q * 2 ^ d
    match mode with
    | 1 =>
      let h : Int := 2 ^ (d - 1)
      if f > h ∨ (f = h ∧ q % 2 = 1) then q + 1 else q
    | 2 =>
      if d ≤ k then (x + (r % 2 ^ d : Nat)) / 2 ^ d
      else (x + ((r % 2 ^ k) * 2 ^ (d - k) : Nat)) / 2 ^ d
    | _ => q

/-- M(key, ctr, step) of R103. -/
def mix (key ctr : Word) (step : BitVec 32) : Word :=
  let x := ctr ^^^ key
  let x := x + step.setWidth 64 * 0xA3D15C2B7E49F06D#64
  let x := (x ^^^ (x >>> 29)) * 0xC6B219E74F835A2D#64
  let x := (x ^^^ (x >>> 32)) * 0x8F1E63A9D25BC417#64
  let x := (x ^^^ (x >>> 27)) * 0xD94B2F7086C31E5B#64
  x ^^^ (x >>> 31)

/-- Redundant bits of a signed value (R98): the greatest b ≤ w - 1 with -2^(w-1-b) ≤ v < 2^(w-1-b). -/
def rsbS (v : Int) (w : Nat) : Nat :=
  let u : Nat := (if v < 0 then -v - 1 else v).toNat
  w - 1 - (if u = 0 then 0 else Nat.log2 u + 1)

/-- Redundant bits of an unsigned value (R98). -/
def rsbU (v w : Nat) : Nat := w - (if v = 0 then 0 else Nat.log2 v + 1)

/-- H_n[i][j] of R111. -/
def hadSign (i j : Nat) : Int := if popc (i &&& j) 5 % 2 = 0 then 1 else -1

/-- R111 on one group. -/
def hadGroup (xs : List Int) : List Int :=
  (List.range xs.length).map fun i => ((xs.zipIdx).map fun p => hadSign i p.2 * p.1).sum

/-- R111 on each aligned group of `n`. -/
def hadamard (n : Nat) (xs : List Int) : List Int :=
  ((List.range (xs.length / n)).map fun g => hadGroup ((xs.drop (g * n)).take n)).flatten

/-! ## Formats (R91) -/

/-- Width in bits of a FMT code; VQ2 counts 16 for an index. -/
def fmtWidth : Nat → Nat
  | 0 => 4 | 1 => 8 | 2 => 16 | 3 => 32 | 4 => 64 | 5 => 8 | 6 => 16 | 7 => 32 | 8 => 64 | 9 => 16 | _ => 8

/-- Unsigned formats. -/
def fmtUnsigned (f : Nat) : Bool := f ≥ 5

/-- Reads a format's bits as a value. -/
def fmtRead (f : Nat) (bits : Nat) : Int :=
  if fmtUnsigned f then (bits % 2 ^ fmtWidth f : Nat) else sx bits (fmtWidth f)

/-- Saturates to a format of width `w` (R97 step 2). -/
def satTo (w : Nat) (uns : Bool) (x : Int) : Int := if uns then satn x w else sat x w

/-! ## VQ2 (R107-R109) -/

/-- Patterns of `n` magnitudes 0-3 of a given norm, in lexicographic order (R108). -/
def vqPats : Nat → Nat → List (List Nat)
  | 0, norm => if norm = 0 then [[]] else []
  | n + 1, norm =>
    ([0, 1, 2, 3].filter fun m => m * m ≤ norm).flatMap fun m => (vqPats n (norm - m * m)).map (m :: ·)

/-- The 16-bit encoding of a pattern: magnitude j in bits [2j+1:2j]. -/
def vqEncode (ms : List Nat) : Nat := ms.foldr (fun m acc => m + 4 * acc) 0

/-- The built-in table (R108): even norms 0, 2, 4, then the first 149 patterns of norm 6. -/
def vqTable : List Nat :=
  ((vqPats 8 0) ++ (vqPats 8 2) ++ (vqPats 8 4) ++ (vqPats 8 6).take 149).map vqEncode

/-- wt_j of an index and its table entry (R107). -/
def vqWeight (entry idx j : Nat) : Int :=
  let m : Int := (fld entry (2 * j) 2 : Nat)
  if bit idx j then -m else m

/-- A block byte is legal when BSH ≤ 4 and bits [7:3] are 0 (R109). -/
def blkLegal (b : Nat) : Bool := b ≤ 4

/-! ## Lanes (R278) -/

def wBits : Width → Nat
  | .i8 => 8 | .i16 => 16 | .i32 => 32 | .i64 => 64

def wCount (w : Width) : Nat := 2048 / wBits w

def wCode : Width → Nat
  | .i8 => 0 | .i16 => 1 | .i32 => 2 | .i64 => 3

def mBytes : MemSize → Nat
  | .b1 => 1 | .b2 => 2 | .b4 => 4 | .b8 => 8

/-- Bits of lane `m` at `bits` per lane. -/
def laneBits (bits : Nat) (v : Vec) (m : Nat) : Nat := v.toNat / 2 ^ (m * bits) % 2 ^ bits

/-- Lane `m` read signed. -/
def lane (bits : Nat) (v : Vec) (m : Nat) : Int := sx (laneBits bits v m) bits

/-- All lanes, signed. -/
def lanes (bits : Nat) (v : Vec) : List Int := (List.range (2048 / bits)).map (lane bits v)

/-- A register from its lanes, lane 0 first; each keeps its low `bits`. -/
def ofLanes (bits : Nat) (xs : List Int) : Vec :=
  BitVec.ofNat 2048 (xs.foldr (fun x acc => zx x bits + 2 ^ bits * acc) 0)

/-- Lane `m` is active under mask `k` (R279): bit m × q. -/
def active (bits : Nat) (k : BitVec 256) (m : Nat) : Bool := k.getLsbD (m * (bits / 8))

/-! ## Bytes -/

/-- Little-endian value of bytes. -/
def leNat (bs : List Byte) : Nat := bs.foldr (fun b acc => b.toNat + 256 * acc) 0

/-- `n` little-endian bytes of a value. -/
def leBytes : Nat → Nat → List Byte
  | 0, _ => []
  | n + 1, x => BitVec.ofNat 8 x :: leBytes n (x / 256)

/-! ## Packing patterns (R112, R113) -/

/-- One period's bits, cut into the raw value of each field in order, with its sign-extended or zero-extended value. -/
def patCut (fields : List (Nat × Nat × Bool)) (bits : Nat) : List Int :=
  fields.map fun (off, w, sgn) => if sgn then sx (fld bits off w : Nat) w else (fld bits off w : Nat)

/-- Elements packed into one period; later fields win, uncovered bits are 0. -/
def patPack (fields : List (Nat × Nat × Bool)) (xs : List Int) : Nat :=
  (fields.zip xs).foldl (fun acc (f, x) =>
    let (off, w, sgn) := f
    let v := zx (if sgn then sat x w else satn x w) w
    acc - fld acc off w * 2 ^ off + v * 2 ^ off) 0

end Sys2Proof.Machine
end

