-- ==== Sys2Proof/WellFormed.lean ====
section
/-! DEFINITION. Which operand values an instruction's entry admits (R203-R205 and the entries of chapters 10-14): the
checks that depend only on the instruction's words. What fails them is an illegal instruction. -/

namespace Sys2Proof

namespace WF

/-! ## Format-level checks (R204) -/

/-- Slots of the scalar map, of its branch rows, of the vector map (R220). -/
def scal : List Nat := [0, 1]
def vect : List Nat := [3, 4]

/-- An extension word is 32 bits. -/
def extOk (e : Option Nat) : Bool := match e with | none => true | some x => x < 2 ^ 32

/-- Fields in range, slot allowed. -/
def tri (slots : List Nat) (t : Tri) : Bool :=
  slots.contains t.slot && t.pred < 16 && t.d < 64 && t.a < 64 && t.b < 64 && extOk t.ext

def imm (slots : List Nat) (t : ImmF) : Bool :=
  slots.contains t.slot && t.pred < 16 && t.d < 64 && t.a < 64 &&
    if t.long then -2147483648 ≤ t.imm && t.imm < 2147483648 else -64 ≤ t.imm && t.imm < 64

/-- The landing forms of R213. -/
def landing (long : Bool) (n : Nat) : Bool :=
  if long then 1 ≤ n && n < 4096 else 1 ≤ n && (n < 64 || (n ≤ 316 && n % 4 = 0))

def land (slots : List Nat) (t : LandF) : Bool :=
  slots.contains t.slot && t.pred < 16 && t.d < 64 && t.a < 64 && landing t.long t.land &&
    if t.long then -524288 ≤ t.disp && t.disp < 524288 else t.disp = 0

def store (slots : List Nat) (t : StoreF) : Bool :=
  slots.contains t.slot && t.pred < 16 && t.src < 64 && t.a < 64 &&
    if t.long then -2147483648 ≤ t.off && t.off < 2147483648 else -32 ≤ t.off && t.off < 32

def disp (slots : List Nat) (t : DispF) : Bool :=
  slots.contains t.slot && t.pred < 16 &&
    if t.long then -2147483648 ≤ t.disp && t.disp < 2147483648 else -524288 ≤ t.disp && t.disp < 524288

def noneF (slots : List Nat) (t : NoneF) : Bool := slots.contains t.slot && t.pred < 16

/-! ## Field rules -/

/-- An unused A field is 0 with its B bit; the same for B (R225). -/
def a0 (t : Tri) : Bool := t.a = 0 && !t.ba
def b0 (t : Tri) : Bool := t.b = 0 && !t.bb
def d0 (t : Tri) : Bool := t.d = 0

/-- No extension word (R226). -/
def noExt (t : Tri) : Bool := t.ext.isNone

/-- A required extension word with a property. -/
def needExt (p : Nat → Bool) (t : Tri) : Bool := match t.ext with | none => false | some x => p x

/-- The B-imm kind (R226), with what the entry asks of the extension. -/
def bImm (p : Nat → Bool) (t : Tri) : Bool := match t.ext with | none => true | some x => b0 t && p x

/-- The mask extension of a vector operation (R204). -/
def mask (t : Tri) : Bool := match t.ext with | none => true | some x => x < 8

/-- The IMM format without a D field or an A field. -/
def immD0 (t : ImmF) : Bool := t.d = 0
def immA0 (t : ImmF) : Bool := t.a = 0 && !t.ba

/-- A CSR selector is IMM7 without extension (R220); `p` says which the operation admits (R212, R271, R336). -/
def csr (p : Nat → Bool) (t : ImmF) : Bool := !t.long && p (t.imm % 128).toNat

/-- Selectors of R212. -/
def csrKnown (s : Nat) : Bool :=
  s ≤ 0x08 || (0x10 ≤ s && s ≤ 0x12) || (0x18 ≤ s && s ≤ 0x1B) || (0x20 ≤ s && s ≤ 0x26) || s = 0x28 || s = 0x29 ||
    (0x30 ≤ s && s ≤ 0x32) || s = 0x38 || s = 0x39 || (0x40 ≤ s && s ≤ 0x42) || s = 0x48 || s = 0x49

/-- Registers whose every field is RO (R212): TRPC2, TRCAUSE2, CRDEPTH, SPBASE, LCID, PCID, CTXID, LCOUNT, LSTAGES,
CYCLE, FRZCNT. -/
def csrReadOnly (s : Nat) : Bool :=
  s = 0x05 || s = 0x06 || s = 0x07 || s = 0x28 || (0x30 ≤ s && s ≤ 0x32) || s = 0x41 || s = 0x42 || s = 0x48 || s = 0x49

def csrWritable (s : Nat) : Bool := csrKnown s && !csrReadOnly s

/-- The immediate of an IMM form read as the timeline selector of R265. -/
def selOf (t : ImmF) : Nat := if t.long then (t.imm % 2 ^ 32).toNat else (t.imm % 128).toNat

/-- A timeline selector with KIND up to `kmax` (R265, R332). -/
def selOk (kmax x : Nat) : Bool :=
  let kind := x % 16
  let index := x / 16
  x < 2 ^ 14 && kind ≤ kmax &&
    match kind with
    | 0 => index ≤ 3
    | 5 => index ≤ 3
    | 6 => index ≤ 1023
    | _ => index = 0

/-- The window field of EXT and INS in the immediate form (R230). -/
def fieldOk (sx : Bool) (x : Nat) : Bool :=
  let pos := x % 64
  let w := x / 256 % 128
  1 ≤ w && w ≤ 64 && pos + w ≤ 64 && x / 64 % 4 = 0 && x / 2 ^ 15 % 2 = 0 && x / 2 ^ 17 = 0 && (sx || x / 2 ^ 16 % 2 = 0)

/-- SHRS control (R235). -/
def shrsOk (x : Nat) : Bool := x / 64 % 4 = 0 && 1 ≤ x / 256 % 128 && x / 256 % 128 ≤ 64 && x / 2 ^ 15 = 0

/-- SATS control in the immediate form (R236). -/
def satsOk (x : Nat) : Bool := 1 ≤ x % 128 && x % 128 ≤ 64 && x < 256

/-- MDRAIN's extension word with its D field (R316). -/
def drainOk (d x : Nat) : Bool :=
  let dv := x % 2
  let dsh := x / 2 % 64
  let mode := x / 128 % 2
  let had := x / 256 % 4
  let vw := x / 1024 % 4
  let row0 := x / 2 ^ 12 % 128
  let nr := x / 2 ^ 19 % 128 + 1
  x < 2 ^ 27 && row0 + nr ≤ 128 && had ≠ 3 && vw ≠ 3 &&
    if dv = 0 then d < 16 && dsh = 0 && mode = 0 && vw = 0 else nr ≤ 32 && d % 2 = 0 && d + 2 * nr - 1 ≤ 63

/-- SBIND's extension word (R305). -/
def bindOk (x : Nat) : Bool :=
  let dir := x % 2
  let feed := x / 2 % 4
  x < 2 ^ 22 && feed ≠ 3 && if dir = 0 then x / 32 % 2 ^ 17 = 0 else feed ≠ 2

/-- MCPS: no reserved step, no step beyond the length (R314). -/
def cpatOk (len steps : Nat) : Bool :=
  (List.range 16).all fun s => if s < len then steps / 2 ^ (2 * s) % 4 ≠ 3 else steps / 2 ^ (2 * s) % 4 = 0

/-- Descriptor field selectors of DSETF and DGETF (R320). -/
def descField (b : Nat) : Bool := b ≤ 11 || (16 ≤ b && b ≤ 31)

/-- ATOM's extension word: landing, U for min and max (R260). -/
def atomOk (op : AtomOp) (x : Nat) : Bool :=
  x < 2 ^ 14 && 1 ≤ x % 4096 && (x / 2 ^ 13 = 0 || op = .min || op = .max)

/-- CAS's extension word: landing and the register of c (R260). -/
def casOk (x : Nat) : Bool := x < 2 ^ 21 && 1 ≤ x % 4096 && x / 2 ^ 13 % 2 = 0

/-! ## RISC-V fields (R332, R339) -/

def reg (n : Nat) : Bool := n < 32
def rtype (r : RType) : Bool := reg r.rd && reg r.rs1 && reg r.rs2

/-- Event operands that name a core, a context, a die, a port, a queue. -/
def core (n : Nat) : Bool := n < 640
def ctx (n : Nat) : Bool := n < 4
def die (n : Nat) : Bool := n < 32
def port (n : Nat) : Bool := n < 2
def queue (n : Nat) : Bool := n < 64

/-- A command snapshot (R196). -/
def cmd (c : Cmd) : Bool :=
  port c.port && c.queue < 64 && c.op0 < 2 ^ 64 && c.op1 < 2 ^ 64 && c.op2 < 2 ^ 64 && c.op3 < 2 ^ 64

def engine : Engine → Bool
  | .ch n => n < 4
  | .wp n => n < 4
  | _ => true

end WF

open WF in
/-- The well-formed instructions. -/
def Instr.wf : Instr → Bool
  | .add t => tri scal t && noExt t
  | .addi t => imm scal t
  | .sub t => tri scal t && bImm (fun _ => true) t
  | .mul t => tri scal t && bImm (fun _ => true) t
  | .mulh t => tri scal t && bImm (fun _ => true) t
  | .mulhn t => tri scal t && bImm (fun _ => true) t
  | .and t => tri scal t && noExt t
  | .andi t => imm scal t
  | .or t => tri scal t && noExt t
  | .ori t => imm scal t
  | .xor t => tri scal t && noExt t
  | .xori t => imm scal t
  | .andn t => tri scal t && bImm (fun _ => true) t
  | .min t => tri scal t && bImm (fun _ => true) t
  | .minn t => tri scal t && bImm (fun _ => true) t
  | .max t => tri scal t && bImm (fun _ => true) t
  | .maxn t => tri scal t && bImm (fun _ => true) t
  | .abs t => tri scal t && noExt t && b0 t
  | .mov t => tri scal t && noExt t && b0 t
  | .movi t => imm scal t && immA0 t
  | .shl t => tri scal t && noExt t
  | .shli t => imm scal t && 0 ≤ t.imm && t.imm ≤ 63
  | .shr t => tri scal t && noExt t
  | .shri t => imm scal t && 0 ≤ t.imm && t.imm ≤ 63
  | .sar t => tri scal t && noExt t
  | .sari t => imm scal t && 0 ≤ t.imm && t.imm ≤ 63
  | .rol t => tri scal t && bImm (· < 64) t
  | .clz t => tri scal t && noExt t && b0 t
  | .ctz t => tri scal t && noExt t && b0 t
  | .popc t => tri scal t && noExt t && b0 t
  | .ext t => tri scal t && bImm (fieldOk true) t
  | .ins t => tri scal t && bImm (fieldOk false) t
  | .sel t => tri scal t && needExt (· < 16) t
  | .cmp _ t => tri scal t && noExt t && t.d < 16
  | .cmpi _ t => imm scal t && t.d < 16
  | .pand t => tri scal t && noExt t && t.d < 16 && t.a < 16 && t.b < 16
  | .por t => tri scal t && noExt t && t.d < 16 && t.a < 16 && t.b < 16
  | .pxor t => tri scal t && noExt t && t.d < 16 && t.a < 16 && t.b < 16
  | .pnot t => tri scal t && noExt t && t.d < 16 && t.a < 16 && b0 t
  | .shrn t => tri scal t && bImm (· ≤ 64) t
  | .shrs t => tri scal t && needExt shrsOk t
  | .sats t => tri scal t && bImm satsOk t
  | .divf t => tri scal t && bImm (fun _ => true) t
  | .remf t => tri scal t && bImm (fun _ => true) t
  | .rcpn t => tri scal t && noExt t && b0 t && t.d % 2 = 0 && 2 ≤ t.d
  | .rsqn t => tri scal t && noExt t && b0 t && t.d % 2 = 0 && 2 ≤ t.d
  | .rnd t => tri scal t && noExt t && a0 t && b0 t
  | .bra t => disp [1] t
  | .brc t => disp [1] t
  | .call t => disp [1] t
  | .brr t => tri [1] t && noExt t && d0 t && b0 t
  | .callr t => tri [1] t && noExt t && b0 t
  | .ret t => tri [1] t && noExt t && d0 t && b0 t
  | .loop t => imm [1] t && t.d < 8 && 1 ≤ t.imm
  | .loopx t => imm [1] t && t.d < 8 && 1 ≤ t.imm
  | .ld _ t => land [2] t
  | .st _ t => store [2] t
  | .lda _ _ t => land [2] t
  | .stl _ _ t => store [2] t
  | .vld t => land [2] t
  | .vst t => store [2] t
  | .vstDescriptor t => store [2] t
  | .vlds t => land [2] t
  | .atom op _ _ t => tri [2] t && needExt (atomOk op) t
  | .cas _ _ t => tri [2] t && needExt casOk t
  | .fence _ o t => noneF [2] t && o ≠ .rlx
  | .tlook t => tri [2] t && noExt t && b0 t
  | .tset t => tri [2] t && noExt t
  | .tclr t => tri [2] t && noExt t && b0 t
  | .tinv t => tri [2] t && noExt t && a0 t && b0 t
  | .spill t => tri [2] t && noExt t && t.d < 16 && t.b ≤ 1 && !t.bb && (t.b = 1 || t.a ≠ 0)
  | .unspill t => tri [2] t && noExt t && a0 t && t.b ≤ 1 && !t.bb && (t.b = 1 || t.d ≠ 0)
  | .waitt t => imm [7] t && immD0 t && selOk 6 (selOf t)
  | .readt t => imm [7] t && immA0 t && selOk 6 (selOf t)
  | .bara t => land [7] t && t.disp = 0
  | .barw t => tri [7] t && noExt t && d0 t
  | .barm t => tri [7] t && noExt t && d0 t
  | .cropen t => imm [7] t && immA0 t
  | .crclose t => noneF [7] t
  | .trap t => imm [7] t && immD0 t && immA0 t && 0 ≤ t.imm
  | .track t => noneF [7] t
  | .tret t => noneF [7] t
  | .csrr t => imm [7] t && immA0 t && csr csrKnown t
  | .csrw t => imm [7] t && immD0 t && csr (fun s => csrWritable s && s ≠ 0x38 && s ≠ 0x29) t
  | .csrs t => imm [7] t && immD0 t && csr (fun s => csrWritable s && s ≠ 0x38) t
  | .csrc t => imm [7] t && immD0 t && csr (fun s => csrWritable s && s ≠ 0x38) t
  | .stageCsrWrite t => imm [7] t && immD0 t && csr (· = 0x38) t
  | .cbtbaseWrite t => imm [7] t && immD0 t && csr (· = 0x29) t
  | .evpost t => tri [7] t && noExt t && d0 t
  | .yield t => imm [7] t && immD0 t && immA0 t && 1 ≤ t.imm && t.imm ≤ 4095
  | .yieldExpiry c x => core c && ctx x
  | .endTask t => noneF [7] t
  | .icinv t => tri [7] t && noExt t && d0 t
  | .lsupd t => tri [7] t && noExt t && t.d < 16 && b0 t
  | .vadd _ t => tri vect t && mask t
  | .vsub _ t => tri vect t && mask t
  | .vadds _ t => tri vect t && mask t
  | .vsubs _ t => tri vect t && mask t
  | .vmul _ t => tri vect t && mask t
  | .vmulh _ t => tri vect t && mask t
  | .vmulsh _ t => tri vect t && mask t
  | .vmac _ t => tri vect t && mask t
  | .vmin _ t => tri vect t && mask t
  | .vmax _ t => tri vect t && mask t
  | .vabs _ t => tri vect t && mask t && b0 t
  | .vneg _ t => tri vect t && mask t && b0 t
  | .vand _ t => tri vect t && mask t
  | .vor _ t => tri vect t && mask t
  | .vxor _ t => tri vect t && mask t
  | .vnot _ t => tri vect t && mask t && b0 t
  | .vshl _ t => tri vect t && mask t
  | .vshr _ t => tri vect t && mask t
  | .vsar _ t => tri vect t && mask t
  | .vshrs _ t => tri vect t && mask t
  | .vshrn _ t => tri vect t && mask t
  | .vsat w t => tri vect t && mask t && t.b ≤ 8 * 2 ^ (match w with | .i8 => 0 | .i16 => 1 | .i32 => 2 | .i64 => 3) - 1
  | .vwid w t => tri [4] t && mask t && w ≠ .i64 && t.b ≤ 1
  | .vpack w t => tri [4] t && mask t && w ≠ .i64
  | .vcmp _ _ t => tri vect t && mask t && t.d < 8
  | .vsel _ t => tri vect t && mask t
  | .vbcast _ t => tri [4] t && mask t && b0 t
  | .vperm _ t => tri [4] t && mask t
  | .vshuf _ t => tri [4] t && mask t && t.b ≤ 3 && !t.bb
  | .vrot _ t => tri [4] t && mask t
  | .vmovg _ t => tri vect t && noExt t
  | .vins _ t => tri vect t && noExt t
  | .vredadd _ t => tri [4] t && mask t && b0 t
  | .vredmax _ t => tri [4] t && mask t && b0 t
  | .vredmin _ t => tri [4] t && mask t && b0 t
  | .vcensus _ t => tri [4] t && mask t && b0 t
  | .vexp2 w t => tri [4] t && mask t && w = .i32 && b0 t
  | .vlut w t => tri [4] t && mask t && (w = .i8 || (w = .i16 && t.b % 2 = 0 && t.b ≤ 62))
  | .vhad w t => tri [4] t && mask t && (w = .i16 || w = .i32) && t.b ≤ 1 && !t.bb
  | .vcbdec w t => tri [4] t && mask t && (w = .i8 || w = .i16)
  | .vclz _ t => tri vect t && mask t && b0 t
  | .viota _ t => tri vect t && mask t && a0 t && b0 t
  | .kand t => tri vect t && noExt t && t.d < 8 && t.a < 8 && t.b < 8
  | .kor t => tri vect t && noExt t && t.d < 8 && t.a < 8 && t.b < 8
  | .knot t => tri vect t && noExt t && t.d < 8 && t.a < 8 && b0 t
  | .mldn t => tri [5] t && noExt t && t.d < 2 && t.a < 16 && b0 t
  | .mldw t => tri [5] t && noExt t && t.d < 2 && t.a < 16 && b0 t
  | .mlds t => tri [5] t && noExt t && t.d < 2 && t.a < 16 && t.b < 16
  | .mcps t => imm [5] t && t.long && t.d < 16 && immA0 t && cpatOk (t.d + 1) (t.imm % 2 ^ 32).toNat
  | .mrun t => tri [5] t && t.d < 8 && t.a < 16 && b0 t && needExt (· < 2 ^ 17) t
  | .mdrain t => tri [5] t && t.a < 8 && b0 t && needExt (drainOk t.d) t
  | .mclr t => tri [5] t && noExt t && t.d < 8 && a0 t && b0 t
  | .maccmv t => tri [5] t && noExt t && t.d < 8 && t.a < 8 && t.b ≤ 1 && !t.bb
  | .mregrow t => tri [5] t && t.d < 16 && t.a < 16 && t.b < 16 && needExt (· ≤ 1) t
  | .mpois t => tri [5] t && noExt t && t.a < 8 && t.b ≤ 1 && !t.bb
  | .sbind t => tri [6] t && t.a < 16 && t.b < 32 && needExt bindOk t
  | .spat t => tri [6] t && noExt t && d0 t && t.a < 16
  | .sfree t => tri [6] t && noExt t && d0 t && t.a < 16 && b0 t
  | .sstat t => tri [6] t && noExt t && t.a < 16 && b0 t
  | .dset t => tri [6] t && noExt t && t.d < 32 && b0 t
  | .dget t => tri [6] t && noExt t && t.a < 32 && t.b < 16 && !t.bb
  | .dsetf t => tri [6] t && noExt t && t.d < 32 && descField t.b && !t.bb
  | .dgetf t => tri [6] t && noExt t && t.a < 32 && descField t.b && !t.bb
  | .cpy t => tri [6] t && t.a < 32 && t.b < 32 && needExt (· < 2 ^ 19) t
  | .cpym t => tri [6] t && t.a < 32 && needExt (· < 64) t
  | .stage t => imm [6] t && immD0 t && immA0 t && 1 ≤ t.imm
  | .gridld t => tri [6] t && t.d % 2 = 0 && needExt (fun x => 1 ≤ x && x < 4096) t
  | .gridsc t => tri [6] t && noExt t && t.b ≤ 61
  | .wput t => tri [6] t && t.b % 2 = 0 && needExt (· < 4) t
  | .wget t => tri [6] t && t.b % 2 = 0 && needExt (· < 4) t
  | .coll t => tri [6] t && noExt t && b0 t
  | .spawn t => tri [6] t && noExt t
  | .fixedResult c x => core c && ctx x
  | .returnArrival _ => true
  | .landing c x => core c && ctx x
  | .lateArrival _ => true
  | .lossCountDue c x => core c && ctx x
  | .engineCompletion c e => core c && engine e
  | .taskBind c => core c
  | .spawnDelivery => true
  | .helperStart c _ => core c
  | .scratchpadAccess _ => true
  | .ringAccess _ => true
  | .mtuAccess _ => true
  | .pageWalk a v => a < 64 && v < 2 ^ 56
  | .trackedPacketArrival _ => true
  | .appliedAckSend h s => die h && die s
  | .appliedAckArrival s h => die s && die h
  | .rowFault d ctl _ => die d && ctl < 4
  | .patrolScrub d => die d
  | .cxlPortDown p => p < 16
  | .windowPutArrival p => p.win < 1024
  | .windowPutApplied _ => true
  | .windowGetArrival p => p.win < 1024
  | .putAckArrival c w _ _ => core c && w < 4
  | .nodeSelection => true
  | .logEntryDistribution d => die d
  | .offlineMapApply d => die d
  | .taskEndRecord d => die d
  | .queueSuspendBoundary q => queue q
  | .eventRecordPost d => die d
  | .portRecordDelivery p => port p
  | .distributorHandover d _ => die d
  | .distributionLost d _ => die d
  | .hactUnwind c x => core c && ctx x
  | .hactFail c x => core c && ctx x
  | .clockGate c => core c
  | .powerGate c => core c
  | .fogReport c => core c
  | .rotationStep cl => cl < 160
  | .reliefMove cl => cl < 160
  | .reliefCopyDone cl => cl < 160
  | .scanPass cl => cl < 160
  | .scanFail cl => cl < 160
  | .quiesceReached => true
  | .captureDone => true
  | .rollbackRestoreDone => true
  | .linkFlit f l _ => f < 6 && l < 16
  | .linkResendLimit f l => f < 6 && l < 16
  | .linkLockLoss f l => f < 6 && l < 16
  | .heartbeatTimeout f l => f < 6 && l < 16
  | .switchForward _ => true
  | .fabricPacketArrival _ => true
  | .e2eAckSend _ d => die d
  | .e2eAckArrival d _ _ _ => die d
  | .replayTimeout d _ => die d
  | .daymarkStage d _ => d < 256
  | .daymarkSwitch d => d < 256
  | .keeperTimeout => true
  | .combiningTimeout _ => true
  | .apertureRead p _ _ _ => port p
  | .apertureWrite p _ _ _ => port p
  | .bridgeLinkLost p => port p
  | .lampTake p => port p
  | .lampDrop p => port p
  | .qtailWrite p q v => port p && queue q && v < 2 ^ 32
  | .evheadWrite p v => port p && v < 2 ^ 32
  | .brerrClear p => port p
  | .registerWrite p _ v => port p && v < 2 ^ 64
  | .queueCreate c => cmd c
  | .queueDestroy c => cmd c
  | .queueSuspend c => cmd c
  | .queueResume c => cmd c
  | .queueTransfer c => cmd c
  | .kick c => cmd c
  | .offlineMap c => cmd c
  | .contextAction c => cmd c
  | .quiesce c => cmd c
  | .capture c => cmd c
  | .commit c => cmd c
  | .rollback c => cmd c
  | .assumeIdentity c => cmd c
  | .rebuild c => cmd c
  | .registerGroup c => cmd c
  | .deregisterGroup c => cmd c
  | .registerWindow c => cmd c
  | .deregisterWindow c => cmd c
  | .loadObject c => cmd c
  | .unloadObject c => cmd c
  | .installResidentImage c => cmd c
  | .packageReset c => cmd c
  | .configurationImageChange c => cmd c
  | .registerAddressSpace c => cmd c
  | .tearDownAddressSpace c => cmd c
  | .translationInvalidate c => cmd c
  | .faultAnswer c => cmd c
  | .physicalWrite c => cmd c
  | .physicalRead c => cmd c
  | .unknownCommand _ c => cmd c
  | .getVersion p => port p
  | .getCapabilities p => port p
  | .negotiateAlgorithms p => port p
  | .getDigests p => port p
  | .getCertificate p => port p
  | .challenge p => port p
  | .getMeasurements p => port p
  | .powerOn => true
  | .supplyOutOfRange _ => true
  | .throttleDown d _ => die d
  | .throttleRaise d _ => die d
  | .thermalTrip d _ => die d
  | .lxCpy r => rtype r
  | .lxSbind r => rtype r && r.rd = 0 && r.rs2 = 0
  | .lxSpush r => rtype r && r.rs2 = 0
  | .lxSpop r => rtype r && r.rs1 = 0 && r.rs2 = 0
  | .lxSstat r => rtype r && r.rs1 = 0 && r.rs2 = 0
  | .lxStage r => rtype r && r.rd = 0 && r.rs2 = 0
  | .lxXbase r => rtype r && r.rd = 0 && r.rs2 = 0
  | .lxEv r => rtype r && r.rd = 0
  | .lxEnd r => r.rd = 0 && r.rs1 = 0 && r.rs2 = 0
  | .lxWaitt i => reg i.rd && reg i.rs1 && 0 ≤ i.imm && i.imm < 4096 && selOk 5 i.imm.toNat
  | .lxReadt i => reg i.rd && i.rs1 = 0 && 0 ≤ i.imm && i.imm < 4096 && selOk 5 i.imm.toNat
  | .lxReadth i => reg i.rd && i.rs1 = 0 && 0 ≤ i.imm && i.imm < 4096 && selOk 5 i.imm.toNat
  | .lxBind r => rtype r
  | .lxRel r => rtype r
  | .lxJwr r => rtype r && r.rs2 = 0
  | .lxAsid r => rtype r && r.rd = 0 && r.rs2 = 0
  | .lxInval r => rtype r && r.rd = 0
  | .lxMark r => rtype r && r.rd = 0 && r.rs2 = 0
  | .lxAnsw r => rtype r && r.rd = 0
  | .lxEvget r => rtype r && r.rs2 = 0
  | .lxEvput r => rtype r && r.rd = 0
  | .lxKscan r => rtype r && r.rs1 = 0 && r.rs2 = 0
  | .bridgeLinkReturn p => port p
  | .rebuildDone => true
  | .parityRecomputed => true
  | .streamElementArrival c x q => core c && ctx x && q < 16
  | .cpymFollowOn c ch => core c && ch < 4
  | .keeperLinkReport f l => f < 2 ^ 21 && f % 8 < 6 && l < 16
  | .stagingConfirmed p => p < 2 ^ 18
  | .thrmRead p => port p
  | .exitFromPowerGating c => core c
  | .riscvLoad _ i => reg i.rd && reg i.rs1 && -2048 ≤ i.imm && i.imm < 2048
  | .riscvStore _ i => reg i.rs1 && reg i.rs2 && -2048 ≤ i.imm && i.imm < 2048
  | .riscvAmo _ _ _ _ r => rtype r
  | .riscvFence fm p s => fm < 16 && p < 16 && s < 16
  | .wfi => true

end Sys2Proof
end

