-- ==== Sys2Proof/Decode.lean ====
section
/-! DEFINITION. Decoding: slot words by format and map (R203-R205, R213, R220), bundle headers (R198, R199), the RISC-V
words of helper and distributor cores (R328, R332, R339); then the encoder, written from the same tables. -/

namespace Sys2Proof

open Machine (fld sx)

/-- Why a word is no instruction of the table. -/
inductive Reject
  /-- The opcode point is unassigned, or the format forbids or lacks the extension word (R205). -/
  | unassigned
  /-- A field is out of its limits (R203, R205). -/
  | field
  /-- A base RISC-V instruction, which the table does not list. -/
  | base
  /-- An illegal RISC-V instruction (R328, R332, R339). -/
  | illegal
  /-- An illegal bundle header (R199). -/
  | header
  deriving DecidableEq, Repr

/-! ## Formats (R204, R213, R251) -/

/-- TRI. -/
def rdTri (slot w : Nat) (x : Option Nat) : Option Tri :=
  some { slot, pred := fld w 20 4, d := fld w 14 6, ba := fld w 13 1 = 1, a := fld w 7 6, bb := fld w 6 1 = 1,
         b := fld w 0 6, ext := x }

/-- IMM: with an extension word IMM7 is 0. -/
def rdImm (slot w : Nat) (x : Option Nat) : Option ImmF :=
  match x with
  | none => some { slot, pred := fld w 20 4, d := fld w 14 6, ba := fld w 13 1 = 1, a := fld w 7 6,
                   imm := sx (fld w 0 7 : Nat) 7, long := false }
  | some e =>
    if fld w 0 7 = 0 then
      some { slot, pred := fld w 20 4, d := fld w 14 6, ba := fld w 13 1 = 1, a := fld w 7 6,
             imm := sx (e : Nat) 32, long := true }
    else none

/-- The landing that a short code names (R213). -/
def landOf (code : Nat) : Nat := if code < 64 then code else 64 + 4 * (code - 64)

/-- LAND: with an extension word LAND7 is 0. -/
def rdLand (slot w : Nat) (x : Option Nat) : Option LandF :=
  match x with
  | none => some { slot, pred := fld w 20 4, d := fld w 14 6, ba := fld w 13 1 = 1, a := fld w 7 6,
                   land := landOf (fld w 0 7), disp := 0, long := false }
  | some e =>
    if fld w 0 7 = 0 then
      some { slot, pred := fld w 20 4, d := fld w 14 6, ba := fld w 13 1 = 1, a := fld w 7 6,
             land := fld e 0 12, disp := sx (fld e 12 20 : Nat) 20, long := true }
    else none

/-- STORE: with an extension word OFF6 is 0. -/
def rdStore (slot w : Nat) (x : Option Nat) : Option StoreF :=
  match x with
  | none => some { slot, pred := fld w 20 4, src := fld w 14 6, ba := fld w 13 1 = 1, a := fld w 7 6,
                   bs := fld w 6 1 = 1, off := sx (fld w 0 6 : Nat) 6, long := false }
  | some e =>
    if fld w 0 6 = 0 then
      some { slot, pred := fld w 20 4, src := fld w 14 6, ba := fld w 13 1 = 1, a := fld w 7 6,
             bs := fld w 6 1 = 1, off := sx (e : Nat) 32, long := true }
    else none

/-- DISP: with an extension word DISP20 is 0. -/
def rdDisp (slot w : Nat) (x : Option Nat) : Option DispF :=
  match x with
  | none => some { slot, pred := fld w 20 4, disp := sx (fld w 0 20 : Nat) 20, long := false }
  | some e => if fld w 0 20 = 0 then some { slot, pred := fld w 20 4, disp := sx (e : Nat) 32, long := true } else none

/-- NONE. -/
def rdNone (slot w : Nat) (x : Option Nat) : Option NoneF :=
  if fld w 0 20 = 0 ∧ x = none then some { slot, pred := fld w 20 4 } else none

/-! ## Opcode maps (R220) -/

def widthOf : Nat → Width
  | 0 => .i8 | 1 => .i16 | 2 => .i32 | _ => .i64

def sizeOf4 : Nat → MemSize
  | 0 => .b1 | 1 => .b2 | 2 => .b4 | _ => .b8

def scopeOf : Nat → Option Scope
  | 0 => some .cl | 1 => some .dv | 2 => some .sy | _ => none

def orderOf : Nat → Order
  | 0 => .rlx | 1 => .acq | 2 => .rel | _ => .ar

def ldOf : Nat → Option LdKind
  | 0 => some .i8 | 1 => some .i16 | 2 => some .i32 | 3 => some .i64 | 4 => some .n8 | 5 => some .n16 | 6 => some .n32
  | _ => none

def atomOf : Nat → Option AtomOp
  | 0 => some .add | 1 => some .min | 2 => some .max | 3 => some .and | 4 => some .or | 5 => some .xor | 6 => some .swap
  | _ => none

/-- Memory map, s2 (R220). -/
def decodeMemory (opc slot w : Nat) (x : Option Nat) : Option Instr :=
  if opc < 0x08 then (ldOf opc).bind fun z => (rdLand slot w x).map (.ld z)
  else if opc < 0x0C then (rdStore slot w x).map (.st (sizeOf4 (opc - 0x08)))
  else if 0x10 ≤ opc ∧ opc < 0x20 then
    (scopeOf ((opc - 0x10) / 4)).bind fun sc => (rdLand slot w x).map (.lda sc (sizeOf4 (opc % 4)))
  else if 0x20 ≤ opc ∧ opc < 0x30 then
    (scopeOf ((opc - 0x20) / 4)).bind fun sc => (rdStore slot w x).map (.stl sc (sizeOf4 (opc % 4)))
  else if opc = 0x30 then (rdLand slot w x).map .vld
  else if opc = 0x31 then (rdStore slot w x).map .vst
  else if opc = 0x32 then (rdLand slot w x).map .vlds
  else if 0x60 ≤ opc ∧ opc < 0x70 then
    if opc % 4 = 0 then none
    else (scopeOf ((opc - 0x60) / 4)).bind fun sc => (rdNone slot w x).map (.fence sc (orderOf (opc % 4)))
  else if opc = 0x70 then (rdTri slot w x).map .tlook
  else if opc = 0x71 then (rdTri slot w x).map .tset
  else if opc = 0x72 then (rdTri slot w x).map .tclr
  else if opc = 0x73 then (rdTri slot w x).map .tinv
  else if opc = 0x78 then (rdTri slot w x).map .spill
  else if opc = 0x79 then (rdTri slot w x).map .unspill
  else if 0x80 ≤ opc then
    (scopeOf ((opc - 0x80) / 32)).bind fun sc =>
      match atomOf (opc % 8) with
      | some op => (rdTri slot w x).map (.atom op sc (orderOf (opc / 8 % 4)))
      | none => (rdTri slot w x).map (.cas sc (orderOf (opc / 8 % 4)))
  else none

/-- Scalar map, s0 and s1 (R220). -/
def decodeScalar (opc slot w : Nat) (x : Option Nat) : Option Instr :=
  match opc with
  | 0x01 => (rdTri slot w x).map .add
  | 0x02 => (rdImm slot w x).map .addi
  | 0x03 => (rdTri slot w x).map .sub
  | 0x04 => (rdTri slot w x).map .mul
  | 0x05 => (rdTri slot w x).map .mulh
  | 0x06 => (rdTri slot w x).map .mulhn
  | 0x08 => (rdTri slot w x).map .and
  | 0x09 => (rdImm slot w x).map .andi
  | 0x0A => (rdTri slot w x).map .or
  | 0x0B => (rdImm slot w x).map .ori
  | 0x0C => (rdTri slot w x).map .xor
  | 0x0D => (rdImm slot w x).map .xori
  | 0x0E => (rdTri slot w x).map .andn
  | 0x10 => (rdTri slot w x).map .shl
  | 0x11 => (rdImm slot w x).map .shli
  | 0x12 => (rdTri slot w x).map .shr
  | 0x13 => (rdImm slot w x).map .shri
  | 0x14 => (rdTri slot w x).map .sar
  | 0x15 => (rdImm slot w x).map .sari
  | 0x16 => (rdTri slot w x).map .rol
  | 0x18 => (rdTri slot w x).map .clz
  | 0x19 => (rdTri slot w x).map .ctz
  | 0x1A => (rdTri slot w x).map .popc
  | 0x20 => (rdTri slot w x).map .min
  | 0x21 => (rdTri slot w x).map .minn
  | 0x22 => (rdTri slot w x).map .max
  | 0x23 => (rdTri slot w x).map .maxn
  | 0x24 => (rdTri slot w x).map .abs
  | 0x25 => (rdTri slot w x).map .sel
  | 0x26 => (rdTri slot w x).map .mov
  | 0x27 => (rdImm slot w x).map .movi
  | 0x28 => (rdTri slot w x).map .ext
  | 0x29 => (rdTri slot w x).map .ins
  | 0x40 => (rdTri slot w x).map .pand
  | 0x41 => (rdTri slot w x).map .por
  | 0x42 => (rdTri slot w x).map .pxor
  | 0x43 => (rdTri slot w x).map .pnot
  | 0x48 => (rdTri slot w x).map .shrs
  | 0x49 => (rdTri slot w x).map .shrn
  | 0x4A => (rdTri slot w x).map .sats
  | 0x50 => (rdTri slot w x).map .divf
  | 0x51 => (rdTri slot w x).map .remf
  | 0x52 => (rdTri slot w x).map .rcpn
  | 0x53 => (rdTri slot w x).map .rsqn
  | 0x54 => (rdTri slot w x).map .rnd
  | 0x80 => (rdDisp slot w x).map .bra
  | 0x81 => (rdDisp slot w x).map .brc
  | 0x82 => (rdTri slot w x).map .brr
  | 0x83 => (rdDisp slot w x).map .call
  | 0x84 => (rdTri slot w x).map .callr
  | 0x85 => (rdTri slot w x).map .ret
  | 0x86 => (rdImm slot w x).map .loop
  | 0x87 => (rdImm slot w x).map .loopx
  | 0x30 => (rdTri slot w x).map (.cmp .eq)
  | 0x38 => (rdImm slot w x).map (.cmpi .eq)
  | 0x31 => (rdTri slot w x).map (.cmp .ne)
  | 0x39 => (rdImm slot w x).map (.cmpi .ne)
  | 0x32 => (rdTri slot w x).map (.cmp .lt)
  | 0x3A => (rdImm slot w x).map (.cmpi .lt)
  | 0x33 => (rdTri slot w x).map (.cmp .ge)
  | 0x3B => (rdImm slot w x).map (.cmpi .ge)
  | 0x34 => (rdTri slot w x).map (.cmp .ltn)
  | 0x3C => (rdImm slot w x).map (.cmpi .ltn)
  | 0x35 => (rdTri slot w x).map (.cmp .gen)
  | 0x3D => (rdImm slot w x).map (.cmpi .gen)
  | _ => none

/-- Matrix map, s5 (R220). -/
def decodeMatrix (opc slot w : Nat) (x : Option Nat) : Option Instr :=
  match opc with
  | 0x01 => (rdTri slot w x).map .mldn
  | 0x02 => (rdTri slot w x).map .mldw
  | 0x03 => (rdTri slot w x).map .mlds
  | 0x04 => (rdTri slot w x).map .mrun
  | 0x05 => (rdImm slot w x).map .mcps
  | 0x06 => (rdTri slot w x).map .mdrain
  | 0x07 => (rdTri slot w x).map .mclr
  | 0x08 => (rdTri slot w x).map .maccmv
  | 0x09 => (rdTri slot w x).map .mregrow
  | 0x0A => (rdTri slot w x).map .mpois
  | _ => none

/-- Transfer map, s6 (R220). -/
def decodeTransfer (opc slot w : Nat) (x : Option Nat) : Option Instr :=
  match opc with
  | 0x01 => (rdTri slot w x).map .sbind
  | 0x02 => (rdTri slot w x).map .spat
  | 0x03 => (rdTri slot w x).map .sfree
  | 0x04 => (rdTri slot w x).map .sstat
  | 0x05 => (rdTri slot w x).map .dset
  | 0x06 => (rdTri slot w x).map .dget
  | 0x07 => (rdTri slot w x).map .dsetf
  | 0x08 => (rdTri slot w x).map .dgetf
  | 0x09 => (rdTri slot w x).map .cpy
  | 0x0A => (rdTri slot w x).map .cpym
  | 0x0B => (rdImm slot w x).map .stage
  | 0x0C => (rdTri slot w x).map .gridld
  | 0x0D => (rdTri slot w x).map .gridsc
  | 0x0E => (rdTri slot w x).map .wput
  | 0x0F => (rdTri slot w x).map .wget
  | 0x10 => (rdTri slot w x).map .coll
  | 0x11 => (rdTri slot w x).map .spawn
  | _ => none

/-- Control map, s7 (R220). A CSRW of STAGE or CBTBASE is a row of its own (R336, R110). -/
def decodeControl (opc slot w : Nat) (x : Option Nat) : Option Instr :=
  match opc with
  | 0x01 => (rdImm slot w x).map .waitt
  | 0x02 => (rdImm slot w x).map .readt
  | 0x03 => (rdLand slot w x).map .bara
  | 0x04 => (rdTri slot w x).map .barw
  | 0x05 => (rdTri slot w x).map .barm
  | 0x06 => (rdImm slot w x).map .cropen
  | 0x07 => (rdNone slot w x).map .crclose
  | 0x08 => (rdImm slot w x).map .trap
  | 0x09 => (rdNone slot w x).map .track
  | 0x0A => (rdNone slot w x).map .tret
  | 0x0B => (rdImm slot w x).map .csrr
  | 0x0C => (rdImm slot w x).map fun t =>
      if w % 128 = 0x38 then .stageCsrWrite t else if w % 128 = 0x29 then .cbtbaseWrite t else .csrw t
  | 0x0D => (rdImm slot w x).map .csrs
  | 0x0E => (rdImm slot w x).map .csrc
  | 0x0F => (rdTri slot w x).map .evpost
  | 0x10 => (rdImm slot w x).map .yield
  | 0x11 => (rdNone slot w x).map .endTask
  | 0x12 => (rdTri slot w x).map .icinv
  | 0x13 => (rdTri slot w x).map .lsupd
  | _ => none

/-- Vector map, s3 and s4 (R220): opcode 4n + w. -/
def decodeVector (opc slot w : Nat) (x : Option Nat) : Option Instr :=
  let wd := widthOf (opc % 4)
  match opc / 4 with
  | 0 => (rdTri slot w x).map (.vadd wd)
  | 1 => (rdTri slot w x).map (.vsub wd)
  | 2 => (rdTri slot w x).map (.vadds wd)
  | 3 => (rdTri slot w x).map (.vsubs wd)
  | 4 => (rdTri slot w x).map (.vmul wd)
  | 5 => (rdTri slot w x).map (.vmulh wd)
  | 6 => (rdTri slot w x).map (.vmulsh wd)
  | 7 => (rdTri slot w x).map (.vmac wd)
  | 8 => (rdTri slot w x).map (.vmin wd)
  | 9 => (rdTri slot w x).map (.vmax wd)
  | 10 => (rdTri slot w x).map (.vabs wd)
  | 11 => (rdTri slot w x).map (.vneg wd)
  | 12 => (rdTri slot w x).map (.vand wd)
  | 13 => (rdTri slot w x).map (.vor wd)
  | 14 => (rdTri slot w x).map (.vxor wd)
  | 15 => (rdTri slot w x).map (.vnot wd)
  | 16 => (rdTri slot w x).map (.vshl wd)
  | 17 => (rdTri slot w x).map (.vshr wd)
  | 18 => (rdTri slot w x).map (.vsar wd)
  | 19 => (rdTri slot w x).map (.vshrs wd)
  | 20 => (rdTri slot w x).map (.vshrn wd)
  | 21 => (rdTri slot w x).map (.vsat wd)
  | 22 => (rdTri slot w x).map (.vwid wd)
  | 23 => (rdTri slot w x).map (.vpack wd)
  | 32 => (rdTri slot w x).map (.vsel wd)
  | 33 => (rdTri slot w x).map (.vbcast wd)
  | 34 => (rdTri slot w x).map (.vperm wd)
  | 35 => (rdTri slot w x).map (.vshuf wd)
  | 36 => (rdTri slot w x).map (.vrot wd)
  | 37 => (rdTri slot w x).map (.vredadd wd)
  | 38 => (rdTri slot w x).map (.vredmax wd)
  | 39 => (rdTri slot w x).map (.vredmin wd)
  | 40 => (rdTri slot w x).map (.vcensus wd)
  | 41 => (rdTri slot w x).map (.vexp2 wd)
  | 42 => (rdTri slot w x).map (.vlut wd)
  | 43 => (rdTri slot w x).map (.vhad wd)
  | 44 => (rdTri slot w x).map (.vcbdec wd)
  | 45 => (rdTri slot w x).map (.vclz wd)
  | 46 => (rdTri slot w x).map (.vmovg wd)
  | 47 => (rdTri slot w x).map (.vins wd)
  | 24 => (rdTri slot w x).map (.vcmp .eq wd)
  | 25 => (rdTri slot w x).map (.vcmp .ne wd)
  | 26 => (rdTri slot w x).map (.vcmp .lt wd)
  | 27 => (rdTri slot w x).map (.vcmp .ge wd)
  | 28 => (rdTri slot w x).map (.vcmp .ltn wd)
  | 29 => (rdTri slot w x).map (.vcmp .gen wd)
  | 48 => if opc % 4 = 0 then (rdTri slot w x).map .kand else none
  | 49 => if opc % 4 = 0 then (rdTri slot w x).map .kor else none
  | 50 => if opc % 4 = 0 then (rdTri slot w x).map .knot else none
  | 51 => (rdTri slot w x).map (.viota wd)
  | _ => none

/-- The map of each slot (R220). -/
def decodeMap (slot w : Nat) (x : Option Nat) : Option Instr :=
  let opc := fld w 24 8
  match slot with
  | 0 => decodeScalar opc slot w x
  | 1 => decodeScalar opc slot w x
  | 2 => decodeMemory opc slot w x
  | 3 => decodeVector opc slot w x
  | 4 => decodeVector opc slot w x
  | 5 => decodeMatrix opc slot w x
  | 6 => decodeTransfer opc slot w x
  | 7 => decodeControl opc slot w x
  | _ => none

/-- A slot word with its extension word: the map, then the limits of the entry (R205). -/
def decodeSlot (slot w : Nat) (x : Option Nat) : Except Reject Instr :=
  match decodeMap slot w x with
  | none => .error .unassigned
  | some i => if i.wf then .ok i else .error .field

/-! ## Bundles (R198, R199) -/

/-- A bundle header. -/
structure Header where
  words : Nat
  rep : Nat
  rot : Bool
  nomerge : Bool
  codes : List Nat
  deriving DecidableEq, Repr

/-- A slot coded 11 takes the next slot, which is coded 00; slot 7 has none (R199). -/
def codesOk : List Nat → Bool
  | [] => true
  | [c] => c ≠ 3
  | c :: n :: r => (c ≠ 3 || n = 0) && codesOk (n :: r)

/-- Words that the codes call for, header included. -/
def codeWords (codes : List Nat) : Nat :=
  1 + (codes.map fun c => if c = 2 then 1 else if c = 3 then 2 else 0).sum

/-- The header word, or none when R199 calls it illegal whatever state the context is in. -/
def decodeHeader (h : Nat) : Option Header :=
  let codes := (List.range 8).map fun k => fld h (14 + 2 * k) 2
  if fld h 30 2 = 2 ∧ fld h 6 2 = 0 ∧ fld h 0 4 = codeWords codes ∧ codesOk codes then
    some { words := fld h 0 4, rep := fld h 8 6, rot := fld h 4 1 = 1, nomerge := fld h 5 1 = 1, codes }
  else none

/-- The slot words of a bundle: slot, word, extension (R198). -/
def cutSlots (slot : Nat) (codes ws : List Nat) : List (Nat × Nat × Option Nat) :=
  match codes with
  | [] => []
  | 2 :: cs =>
    match ws with
    | w :: r => (slot, w, none) :: cutSlots (slot + 1) cs r
    | [] => []
  | 3 :: cs =>
    match ws with
    | w :: e :: r => (slot, w, some e) :: cutSlots (slot + 1) cs r
    | _ => []
  | _ :: cs => cutSlots (slot + 1) cs ws

/-! ## RISC-V words -/

def rdR (w : Nat) : RType := { rd := fld w 7 5, rs1 := fld w 15 5, rs2 := fld w 20 5 }
def rdI (w : Nat) : IType := { rd := fld w 7 5, rs1 := fld w 15 5, imm := sx (fld w 20 12 : Nat) 12 }
/-- An I-type word whose immediate is a raw selector (R332). -/
def rdSel (w : Nat) : IType := { rd := fld w 7 5, rs1 := fld w 15 5, imm := (fld w 20 12 : Nat) }
def rdS (w : Nat) : SType :=
  { rs1 := fld w 15 5, rs2 := fld w 20 5, imm := sx (fld w 25 7 * 32 + fld w 7 5 : Nat) 12 }

/-- Xlyrakcp (R332), major opcode 0x0B. -/
def decodeXcp (w : Nat) : Option Instr :=
  match fld w 12 3 with
  | 0 =>
    match fld w 25 7 with
    | 0 => some (.lxCpy (rdR w)) | 1 => some (.lxSbind (rdR w)) | 2 => some (.lxSpush (rdR w))
    | 3 => some (.lxSpop (rdR w)) | 4 => some (.lxSstat (rdR w)) | 5 => some (.lxStage (rdR w))
    | 6 => some (.lxXbase (rdR w)) | 7 => some (.lxEv (rdR w)) | 8 => some (.lxEnd (rdR w))
    | _ => none
  | 1 => some (.lxWaitt (rdSel w))
  | 2 => some (.lxReadt (rdSel w))
  | 3 => some (.lxReadth (rdSel w))
  | _ => none

/-- Xlyrakds (R339), major opcode 0x2B. -/
def decodeXds (w : Nat) : Option Instr :=
  if fld w 12 3 ≠ 0 then none else
    match fld w 25 7 with
    | 0 => some (.lxBind (rdR w)) | 1 => some (.lxRel (rdR w)) | 2 => some (.lxJwr (rdR w))
    | 3 => some (.lxAsid (rdR w)) | 4 => some (.lxInval (rdR w)) | 5 => some (.lxMark (rdR w))
    | 6 => some (.lxAnsw (rdR w)) | 7 => some (.lxEvget (rdR w)) | 8 => some (.lxEvput (rdR w))
    | 9 => some (.lxKscan (rdR w))
    | _ => none

/-- Loads of RV32 and, when `rv64`, RV64. -/
def loadOf (rv64 : Bool) : Nat → Option RvLoad
  | 0 => some .lb | 1 => some .lh | 2 => some .lw | 4 => some .lbu | 5 => some .lhu
  | 3 => if rv64 then some .ld else none
  | 6 => if rv64 then some .lwu else none
  | _ => none

def rvAmoOf : Nat → Option RvAmo
  | 1 => some .swap | 0 => some .add | 4 => some .xor | 12 => some .and | 8 => some .or | 16 => some .min
  | 20 => some .max | 24 => some .minu | 28 => some .maxu | _ => none

/-- The rows that helper and distributor cores share: loads, stores, FENCE; every other opcode of the base is `base`. -/
def decodeRvBase (rv64 : Bool) (w : Nat) : Except Reject Instr :=
  let f3 := fld w 12 3
  match fld w 0 7 with
  | 0x03 => match loadOf rv64 f3 with
    | some z => .ok (.riscvLoad z (rdI w))
    | none => .error .illegal
  | 0x23 => if f3 < 3 ∨ (f3 = 3 ∧ rv64) then .ok (.riscvStore (sizeOf4 f3) (rdS w)) else .error .illegal
  | 0x0F => if f3 = 0 then .ok (.riscvFence (fld w 28 4) (fld w 24 4) (fld w 20 4)) else .error .illegal
  | 0x13 => .error .base | 0x33 => .error .base | 0x37 => .error .base | 0x17 => .error .base
  | 0x63 => .error .base | 0x67 => .error .base | 0x6F => .error .base | 0x73 => .error .base
  | 0x1B => .error (if rv64 then .base else .illegal)
  | 0x3B => .error (if rv64 then .base else .illegal)
  | _ => .error .illegal

def checkRv : Option Instr → Except Reject Instr
  | none => .error .illegal
  | some i => if i.wf then .ok i else .error .illegal

/-- A 32-bit word at a loader or storer: opcode 0x2B is illegal there, and so is an AMO (R328, R339). -/
def decodeHelper (w : Nat) : Except Reject Instr :=
  if fld w 0 7 = 0x0B then checkRv (decodeXcp w) else decodeRvBase false w

/-- A 32-bit word at a distributor core: opcode 0x0B is illegal there (R332). -/
def decodeDist (w : Nat) : Except Reject Instr :=
  if fld w 0 7 = 0x2B then checkRv (decodeXds w)
  else if w = 0x10500073 then .ok .wfi
  else if fld w 0 7 = 0x2F then
    if fld w 12 3 = 2 ∨ fld w 12 3 = 3 then
      match rvAmoOf (fld w 27 5) with
      | some op => .ok (.riscvAmo op (fld w 12 3 = 3) (fld w 26 1 = 1) (fld w 25 1 = 1) (rdR w))
      | none => if fld w 27 5 = 2 ∨ fld w 27 5 = 3 then .error .base else .error .illegal
    else .error .illegal
  else decodeRvBase true w

/-! ## The encoder -/

def condCode : Cond → Nat
  | .eq => 0 | .ne => 1 | .lt => 2 | .ge => 3 | .ltn => 4 | .gen => 5

def sizeCode : MemSize → Nat
  | .b1 => 0 | .b2 => 1 | .b4 => 2 | .b8 => 3

def scopeCode : Scope → Nat
  | .cl => 0 | .dv => 1 | .sy => 2

def orderCode : Order → Nat
  | .rlx => 0 | .acq => 1 | .rel => 2 | .ar => 3

def ldCode : LdKind → Nat
  | .i8 => 0 | .i16 => 1 | .i32 => 2 | .i64 => 3 | .n8 => 4 | .n16 => 5 | .n32 => 6

def atomCode : AtomOp → Nat
  | .add => 0 | .min => 1 | .max => 2 | .and => 3 | .or => 4 | .xor => 5 | .swap => 6

/-- The low `n` bits of a signed field. -/
def unsx (x : Int) (n : Nat) : Nat := (x % 2 ^ n).toNat

/-- A slot word and its extension word, as a list. -/
def words (w : Nat) : Option Nat → List Nat
  | none => [w]
  | some e => [w, e]

def wrTri (opc : Nat) (t : Tri) : List Nat :=
  words (opc * 2 ^ 24 + t.pred * 2 ^ 20 + t.d * 2 ^ 14 + t.ba.toNat * 2 ^ 13 + t.a * 2 ^ 7 + t.bb.toNat * 2 ^ 6 + t.b) t.ext

def wrImm (opc : Nat) (t : ImmF) : List Nat :=
  let w := opc * 2 ^ 24 + t.pred * 2 ^ 20 + t.d * 2 ^ 14 + t.ba.toNat * 2 ^ 13 + t.a * 2 ^ 7
  if t.long then [w, unsx t.imm 32] else [w + unsx t.imm 7]

/-- The short landing code (R213). -/
def landCode (n : Nat) : Nat := if n < 64 then n else 64 + (n - 64) / 4

def wrLand (opc : Nat) (t : LandF) : List Nat :=
  let w := opc * 2 ^ 24 + t.pred * 2 ^ 20 + t.d * 2 ^ 14 + t.ba.toNat * 2 ^ 13 + t.a * 2 ^ 7
  if t.long then [w, unsx t.disp 20 * 2 ^ 12 + t.land] else [w + landCode t.land]

def wrStore (opc : Nat) (t : StoreF) : List Nat :=
  let w := opc * 2 ^ 24 + t.pred * 2 ^ 20 + t.src * 2 ^ 14 + t.ba.toNat * 2 ^ 13 + t.a * 2 ^ 7 + t.bs.toNat * 2 ^ 6
  if t.long then [w, unsx t.off 32] else [w + unsx t.off 6]

def wrDisp (opc : Nat) (t : DispF) : List Nat :=
  let w := opc * 2 ^ 24 + t.pred * 2 ^ 20
  if t.long then [w, unsx t.disp 32] else [w + unsx t.disp 20]

def wrNone (opc : Nat) (t : NoneF) : List Nat := [opc * 2 ^ 24 + t.pred * 2 ^ 20]

def wrR (opc f3 f7 : Nat) (r : RType) : List Nat :=
  [opc + r.rd * 2 ^ 7 + f3 * 2 ^ 12 + r.rs1 * 2 ^ 15 + r.rs2 * 2 ^ 20 + f7 * 2 ^ 25]

def wrI (opc f3 : Nat) (i : IType) : List Nat :=
  [opc + i.rd * 2 ^ 7 + f3 * 2 ^ 12 + i.rs1 * 2 ^ 15 + unsx i.imm 12 * 2 ^ 20]

def wrS (opc f3 : Nat) (i : SType) : List Nat :=
  [opc + unsx i.imm 12 % 32 * 2 ^ 7 + f3 * 2 ^ 12 + i.rs1 * 2 ^ 15 + i.rs2 * 2 ^ 20 + unsx i.imm 12 / 32 * 2 ^ 25]

def loadCode : RvLoad → Nat
  | .lb => 0 | .lh => 1 | .lw => 2 | .ld => 3 | .lbu => 4 | .lhu => 5 | .lwu => 6

def rvAmoCode : RvAmo → Nat
  | .swap => 1 | .add => 0 | .xor => 4 | .and => 12 | .or => 8 | .min => 16 | .max => 20 | .minu => 24 | .maxu => 28

/-- The 32-bit words of a well-formed instruction: a slot word with its extension word, or one RISC-V word. A step that
has no words of its own (an event, a command, and VST_DESCRIPTOR, whose words are VST's) gives the empty list. -/
def encode : Instr → List Nat
  | .add t => wrTri 0x01 t
  | .addi t => wrImm 0x02 t
  | .sub t => wrTri 0x03 t
  | .mul t => wrTri 0x04 t
  | .mulh t => wrTri 0x05 t
  | .mulhn t => wrTri 0x06 t
  | .and t => wrTri 0x08 t
  | .andi t => wrImm 0x09 t
  | .or t => wrTri 0x0A t
  | .ori t => wrImm 0x0B t
  | .xor t => wrTri 0x0C t
  | .xori t => wrImm 0x0D t
  | .andn t => wrTri 0x0E t
  | .shl t => wrTri 0x10 t
  | .shli t => wrImm 0x11 t
  | .shr t => wrTri 0x12 t
  | .shri t => wrImm 0x13 t
  | .sar t => wrTri 0x14 t
  | .sari t => wrImm 0x15 t
  | .rol t => wrTri 0x16 t
  | .clz t => wrTri 0x18 t
  | .ctz t => wrTri 0x19 t
  | .popc t => wrTri 0x1A t
  | .min t => wrTri 0x20 t
  | .minn t => wrTri 0x21 t
  | .max t => wrTri 0x22 t
  | .maxn t => wrTri 0x23 t
  | .abs t => wrTri 0x24 t
  | .sel t => wrTri 0x25 t
  | .mov t => wrTri 0x26 t
  | .movi t => wrImm 0x27 t
  | .ext t => wrTri 0x28 t
  | .ins t => wrTri 0x29 t
  | .pand t => wrTri 0x40 t
  | .por t => wrTri 0x41 t
  | .pxor t => wrTri 0x42 t
  | .pnot t => wrTri 0x43 t
  | .shrs t => wrTri 0x48 t
  | .shrn t => wrTri 0x49 t
  | .sats t => wrTri 0x4A t
  | .divf t => wrTri 0x50 t
  | .remf t => wrTri 0x51 t
  | .rcpn t => wrTri 0x52 t
  | .rsqn t => wrTri 0x53 t
  | .rnd t => wrTri 0x54 t
  | .bra t => wrDisp 0x80 t
  | .brc t => wrDisp 0x81 t
  | .brr t => wrTri 0x82 t
  | .call t => wrDisp 0x83 t
  | .callr t => wrTri 0x84 t
  | .ret t => wrTri 0x85 t
  | .loop t => wrImm 0x86 t
  | .loopx t => wrImm 0x87 t
  | .cmp cc t => wrTri (0x30 + condCode cc) t
  | .cmpi cc t => wrImm (0x38 + condCode cc) t
  | .ld z t => wrLand (ldCode z) t
  | .st z t => wrStore (0x08 + sizeCode z) t
  | .lda sc z t => wrLand (0x10 + 4 * scopeCode sc + sizeCode z) t
  | .stl sc z t => wrStore (0x20 + 4 * scopeCode sc + sizeCode z) t
  | .vld t => wrLand 0x30 t
  | .vst t => wrStore 0x31 t
  | .vlds t => wrLand 0x32 t
  | .fence sc o t => wrNone (0x60 + 4 * scopeCode sc + orderCode o) t
  | .tlook t => wrTri 0x70 t
  | .tset t => wrTri 0x71 t
  | .tclr t => wrTri 0x72 t
  | .tinv t => wrTri 0x73 t
  | .spill t => wrTri 0x78 t
  | .unspill t => wrTri 0x79 t
  | .atom op sc o t => wrTri (0x80 + 32 * scopeCode sc + 8 * orderCode o + atomCode op) t
  | .cas sc o t => wrTri (0x80 + 32 * scopeCode sc + 8 * orderCode o + 7) t
  | .vadd w t => wrTri (0 + Machine.wCode w) t
  | .vsub w t => wrTri (4 + Machine.wCode w) t
  | .vadds w t => wrTri (8 + Machine.wCode w) t
  | .vsubs w t => wrTri (12 + Machine.wCode w) t
  | .vmul w t => wrTri (16 + Machine.wCode w) t
  | .vmulh w t => wrTri (20 + Machine.wCode w) t
  | .vmulsh w t => wrTri (24 + Machine.wCode w) t
  | .vmac w t => wrTri (28 + Machine.wCode w) t
  | .vmin w t => wrTri (32 + Machine.wCode w) t
  | .vmax w t => wrTri (36 + Machine.wCode w) t
  | .vabs w t => wrTri (40 + Machine.wCode w) t
  | .vneg w t => wrTri (44 + Machine.wCode w) t
  | .vand w t => wrTri (48 + Machine.wCode w) t
  | .vor w t => wrTri (52 + Machine.wCode w) t
  | .vxor w t => wrTri (56 + Machine.wCode w) t
  | .vnot w t => wrTri (60 + Machine.wCode w) t
  | .vshl w t => wrTri (64 + Machine.wCode w) t
  | .vshr w t => wrTri (68 + Machine.wCode w) t
  | .vsar w t => wrTri (72 + Machine.wCode w) t
  | .vshrs w t => wrTri (76 + Machine.wCode w) t
  | .vshrn w t => wrTri (80 + Machine.wCode w) t
  | .vsat w t => wrTri (84 + Machine.wCode w) t
  | .vwid w t => wrTri (88 + Machine.wCode w) t
  | .vpack w t => wrTri (92 + Machine.wCode w) t
  | .vsel w t => wrTri (128 + Machine.wCode w) t
  | .vbcast w t => wrTri (132 + Machine.wCode w) t
  | .vperm w t => wrTri (136 + Machine.wCode w) t
  | .vshuf w t => wrTri (140 + Machine.wCode w) t
  | .vrot w t => wrTri (144 + Machine.wCode w) t
  | .vredadd w t => wrTri (148 + Machine.wCode w) t
  | .vredmax w t => wrTri (152 + Machine.wCode w) t
  | .vredmin w t => wrTri (156 + Machine.wCode w) t
  | .vcensus w t => wrTri (160 + Machine.wCode w) t
  | .vexp2 w t => wrTri (164 + Machine.wCode w) t
  | .vlut w t => wrTri (168 + Machine.wCode w) t
  | .vhad w t => wrTri (172 + Machine.wCode w) t
  | .vcbdec w t => wrTri (176 + Machine.wCode w) t
  | .vclz w t => wrTri (180 + Machine.wCode w) t
  | .vmovg w t => wrTri (184 + Machine.wCode w) t
  | .vins w t => wrTri (188 + Machine.wCode w) t
  | .vcmp cc w t => wrTri (96 + 4 * condCode cc + Machine.wCode w) t
  | .kand t => wrTri 0xC0 t
  | .kor t => wrTri 0xC4 t
  | .knot t => wrTri 0xC8 t
  | .viota w t => wrTri (204 + Machine.wCode w) t
  | .mldn t => wrTri 0x01 t
  | .mldw t => wrTri 0x02 t
  | .mlds t => wrTri 0x03 t
  | .mrun t => wrTri 0x04 t
  | .mcps t => wrImm 0x05 t
  | .mdrain t => wrTri 0x06 t
  | .mclr t => wrTri 0x07 t
  | .maccmv t => wrTri 0x08 t
  | .mregrow t => wrTri 0x09 t
  | .mpois t => wrTri 0x0A t
  | .sbind t => wrTri 0x01 t
  | .spat t => wrTri 0x02 t
  | .sfree t => wrTri 0x03 t
  | .sstat t => wrTri 0x04 t
  | .dset t => wrTri 0x05 t
  | .dget t => wrTri 0x06 t
  | .dsetf t => wrTri 0x07 t
  | .dgetf t => wrTri 0x08 t
  | .cpy t => wrTri 0x09 t
  | .cpym t => wrTri 0x0A t
  | .stage t => wrImm 0x0B t
  | .gridld t => wrTri 0x0C t
  | .gridsc t => wrTri 0x0D t
  | .wput t => wrTri 0x0E t
  | .wget t => wrTri 0x0F t
  | .coll t => wrTri 0x10 t
  | .spawn t => wrTri 0x11 t
  | .waitt t => wrImm 0x01 t
  | .readt t => wrImm 0x02 t
  | .bara t => wrLand 0x03 t
  | .barw t => wrTri 0x04 t
  | .barm t => wrTri 0x05 t
  | .cropen t => wrImm 0x06 t
  | .crclose t => wrNone 0x07 t
  | .trap t => wrImm 0x08 t
  | .track t => wrNone 0x09 t
  | .tret t => wrNone 0x0A t
  | .csrr t => wrImm 0x0B t
  | .csrw t => wrImm 0x0C t
  | .csrs t => wrImm 0x0D t
  | .csrc t => wrImm 0x0E t
  | .evpost t => wrTri 0x0F t
  | .yield t => wrImm 0x10 t
  | .endTask t => wrNone 0x11 t
  | .icinv t => wrTri 0x12 t
  | .lsupd t => wrTri 0x13 t
  | .stageCsrWrite t => wrImm 0x0C t
  | .cbtbaseWrite t => wrImm 0x0C t
  | .lxCpy r => wrR 0x0B 0 0 r
  | .lxSbind r => wrR 0x0B 0 1 r
  | .lxSpush r => wrR 0x0B 0 2 r
  | .lxSpop r => wrR 0x0B 0 3 r
  | .lxSstat r => wrR 0x0B 0 4 r
  | .lxStage r => wrR 0x0B 0 5 r
  | .lxXbase r => wrR 0x0B 0 6 r
  | .lxEv r => wrR 0x0B 0 7 r
  | .lxEnd r => wrR 0x0B 0 8 r
  | .lxWaitt i => wrI 0x0B 1 i
  | .lxReadt i => wrI 0x0B 2 i
  | .lxReadth i => wrI 0x0B 3 i
  | .lxBind r => wrR 0x2B 0 0 r
  | .lxRel r => wrR 0x2B 0 1 r
  | .lxJwr r => wrR 0x2B 0 2 r
  | .lxAsid r => wrR 0x2B 0 3 r
  | .lxInval r => wrR 0x2B 0 4 r
  | .lxMark r => wrR 0x2B 0 5 r
  | .lxAnsw r => wrR 0x2B 0 6 r
  | .lxEvget r => wrR 0x2B 0 7 r
  | .lxEvput r => wrR 0x2B 0 8 r
  | .lxKscan r => wrR 0x2B 0 9 r
  | .riscvLoad z i => wrI 0x03 (loadCode z) i
  | .riscvStore z i => wrS 0x23 (sizeCode z) i
  | .riscvAmo op dbl aq rl r =>
    wrR 0x2F (if dbl then 3 else 2) (rvAmoCode op * 4 + aq.toNat * 2 + rl.toNat) r
  | .riscvFence fm pred succ => [0x0F + succ * 2 ^ 20 + pred * 2 ^ 24 + fm * 2 ^ 28]
  | .wfi => [0x10500073]
  | _ => []

/-- Decodes the words of a slot. -/
def decodeWords (slot : Nat) : List Nat → Except Reject Instr
  | [w] => decodeSlot slot w none
  | [w, e] => decodeSlot slot w (some e)
  | _ => .error .header

/-- The first instruction of a bundle given by its words. -/
def decodeFirst (ws : List Nat) : Option Instr :=
  match ws with
  | [] => none
  | h :: r =>
    match decodeHeader h with
    | none => none
    | some hd =>
      match cutSlots 0 hd.codes r with
      | (slot, w, x) :: _ => (decodeSlot slot w x).toOption
      | [] => none

/-- The instruction read from an instruction's bits, numbered as the opcode table numbers them: a RISC-V word up to 32
bits, else a bundle's header and slot words. -/
def decodeTableWord (nbits w : Nat) : Option Instr :=
  if nbits ≤ 32 then
    (if fld w 0 7 = 0x0B then decodeHelper w else decodeDist w).toOption
  else decodeFirst ((List.range 9).map fun k => fld w (32 * k) 32)

end Sys2Proof
end

