-- ==== Sys2Proof/Config.lean ====
section
/-! DEFINITION. What an implementation, a configuration image or an outside document fixes and the spec does not give:
constants without a body, so that nothing can be proved of their values (log entry 5). -/

namespace Sys2Proof

/-- IDREV of the part (R443). -/
opaque Config.idrev : Nat

/-- The device's certificate chain, in its one slot, and its signatures of challenges, by a fresh-value number (R440). -/
opaque Config.certChain : List Byte

opaque Config.spdmSignature : Nat → List Byte

/-- Word `i` of an SPDM answer in the encoding of DMTF SPDM 1.3: the code of the answer, the bytes that it carries. -/
opaque Config.spdmWord : Nat → List Byte → Nat → Nat

/-- Torus coordinates, mooring package number and parity rank that the configuration image carries (R437). -/
opaque Config.coords : List Byte → Nat

opaque Config.rank : List Byte → Nat

/-- The packages of its mooring, in the image's order, and the position of this package among them (R391). -/
opaque Config.mooring : List Byte → List Nat

opaque Config.mooringIndex : List Byte → Nat

/-- Whether this package is the daymark keeper, and whether it is a standby package (R385, R377). -/
opaque Config.isKeeper : List Byte → Bool

opaque Config.isStandby : List Byte → Bool

/-- The keeper's coordinates, the packages whose switches it serves, and whether this package is the standby keeper
(R385, R437). -/
opaque Config.keeper : List Byte → Nat

opaque Config.pod : List Byte → List Nat

opaque Config.isStandbyKeeper : List Byte → Bool

/-- Links (face, link) that the image gives to a bridge adapter (R379, R391). -/
opaque Config.isBridge : List Byte → Nat → Nat → Bool

/-- Packages along dimension 0, 1, 2 of the torus (R379, R381), less one. -/
opaque Config.extent : List Byte → Nat → Nat

/-- The face to which the routing tables of a daymark send packets for a package whose way a dead face bars (R381), and the
switch's hash of SRC, SDIE and ESEQ. -/
opaque Config.detour : List Nat → Nat → Option Nat

opaque Config.linkHash : Nat → Nat → Nat → Nat

/-- SAFEBASE and the capacity C of one second-tier port, in bytes (R77, R87, R437). -/
opaque Config.safeBase : List Byte → Nat

opaque Config.portBytes : List Byte → Nat

/-- What verifies a configuration image (R437), whose layout the spec does not give: the public key that signed it and
whether that key's certificate chains to the root key in the boot ROM, the bytes signed, the signature (r and s). -/
opaque Config.imageKey : List Byte → Nat × Nat

opaque Config.imageChains : List Byte → Bool

opaque Config.imageSigned : List Byte → List Byte

opaque Config.imageSig : List Byte → List Byte

/-- The translation keys that a configuration image lists (R408, R437): points of P-384. -/
opaque Config.transKeys : List Byte → List (Nat × Nat)

/-- IMGVER of a configuration image (R437). -/
opaque Config.imgver : List Byte → Nat

/-- The boot ROM, and the factory images of distributor firmware (3), helper libraries (4) and scan patterns (5), by
measurement index (R439). -/
opaque Config.bootRom : List Byte

opaque Config.factory : Nat → List Byte

/-- What lx.sstat returns with no stream selected (R332), by a fresh-value number. -/
opaque Config.unselected : Nat → Nat

/-- Cycles that a core's clock has run while it held no task (R212), by a fresh-value number. -/
opaque Config.idleCycles : Nat → Nat

/-- Whether physical core `p` (0-24) of die `d` passes its boot scan (R362). -/
opaque Config.scanPasses : Nat → Nat → Bool

/-- The offset in die 0's device memory at which boot firmware sets the selection log aside (R185). -/
opaque Config.logBase : Nat

/-- The frame a die's firmware takes for a page it moves or a table it adds (R36, R37), by a fresh-value number. -/
opaque Config.freshFrame : Nat → Nat

/-- What the other members of the parity group send (R88, R370, R377), by a fresh-value number and rank: the cells of a
member's image, by offset in the image, and of the parity units it holds, by offset in its parity area. -/
opaque Config.memberImage : Nat → Nat → List (Nat × Byte)

opaque Config.memberParity : Nat → Nat → List (Nat × Byte)

/-- What CXL enumeration finds (R75, R77): whether the device at a port is one of those supported, and the capacity it
presents. -/
opaque Config.portSupported : Nat → Bool

opaque Config.portPresents : Nat → Nat

/-- Whether a Bureel link (face, link) trains at boot (R436). -/
opaque Config.linkTrains : Nat → Nat → Bool

/-- Whether a die's LPDDR6 trains at boot (R436). -/
opaque Config.dieTrains : Nat → Bool

/-- The bits of data that lands poisoned where no data was read: free values (log entry 57), a byte by a fresh-value
number and its address, a register by a fresh-value number. -/
opaque Config.lostByte : Nat → Nat → Byte

opaque Config.lostValue : Nat → Vec

/-- Whether a read of an image in host memory fails (R438); the argument is a fresh number. -/
opaque Config.hostReadFails : Nat → Bool

/-- The cells of the 64 KiB saved record of a capture, whose layout the spec does not give (R370). -/
opaque Config.recordCells : Nat → List (Nat × Byte)

/-- Corrections that a patrol scrub makes on a controller, and the row it makes them in (R72, R73), by a fresh-value
number. -/
opaque Config.corrections : Nat → Nat

opaque Config.correctedRow : Nat → Nat

/-- Where the firmware lays a bind record (R341, R433): die, selection-log SEQ, member. -/
opaque Config.bindRecord : Nat → Nat → Nat → Nat

/-- A junction reading (R442, R443), by a fresh-value number. -/
opaque Config.reading : Nat → Nat

/-- The AGENT field of a fault record (R31), by the model's number of an agent. -/
opaque Config.agentId : Nat → Nat

/-- A power reading of the power controller (R443), by a fresh-value number. -/
opaque Config.power : Nat → Nat

/-- The fabric links of a face of a package (R379, R391), less one: configuration image, package, face. -/
opaque Config.fabricLinks : List Byte → Nat → Nat → Nat

/-- The daymark in force when a package takes its tables from the keeper at boot (R385, R436), by a fresh-value number, and
the dead links (package, face, link) for which the keeper has computed them. -/
opaque Config.bootDaymark : Nat → Nat

opaque Config.bootDeaths : Nat → List (Nat × Nat × Nat)

/-- The contributions that routing tables send through this switch for a piece (R390): tables, key. -/
opaque Config.contributions : List Nat → Nat → Nat

/-- The highest daymark that any switch reports to a keeper that takes over (R385), by a fresh-value number. -/
opaque Config.highestDaymark : Nat → Nat

/-- The dead links (package, face, link) that the switches report to it. -/
opaque Config.deathsKnown : Nat → List (Nat × Nat × Nat)

/-- Node completion pair and queue of a task that lx.bind enqueues, which its bind record does not hold (R340), by
NODEID. -/
opaque Config.bindNode : Nat → Nat × Nat

/-- Whether the other members of a collective match it (R388), by a fresh-value number. -/
opaque Config.collMatch : Nat → Bool

end Sys2Proof
end

