-- ==== Sys2Proof/Machine/State.lean ====
section
/-! DEFINITION. The state of the package as plain data: contexts, cores, helper cores, dies, memory, queues, ports,
fabric, checkpoints, and what is in flight; the reasons a step can stop; the state after reset. -/

namespace Sys2Proof.Machine

/-- Why the machine stops. -/
inductive Fault
  /-- The power stage has removed power after a thermal trip (R442); raised by `step`. Safe: the package is dead. -/
  | poweredOff
  deriving DecidableEq, Repr

/-- Why an instruction has no meaning here. -/
inductive Refusal
  /-- An opcode-table row without a meaning; raised by `exec`. Safe. -/
  | notModelled (mnemonic : String)
  deriving DecidableEq, Repr

/-- An agent of R115. -/
inductive Agent
  | ctx (core x : Nat)
  | loader (core : Nat)
  | storer (core : Nat)
  | dist (die : Nat)
  | host (port : Nat)
  | engine (core : Nat) (e : Engine)
  | window
  | none
  deriving DecidableEq, Repr

/-! ## Registers of a context -/

/-- A G register with its full/empty and poison bits (R207). -/
structure GReg where
  val : Word := 0
  full : Bool := true
  poison : Bool := false
  deriving DecidableEq, Repr

/-- A V register (R207). -/
structure VReg where
  val : Vec := 0
  full : Bool := true
  poison : Bool := false
  deriving DecidableEq, Repr

/-- A P register (R207); it carries no poison. -/
structure PReg where
  val : Bool := false
  full : Bool := true
  deriving DecidableEq, Repr

/-- A destination after rotation resolution (R202). -/
inductive Dest | g (n : Nat) | v (n : Nat) | p (n : Nat) | k (n : Nat) | acc (t : Nat)
  deriving DecidableEq, Repr

/-- A pending register write (R208, R213): `due` is the value of CYCLE at its result cycle. A landing waits for
request `req`; a fixed-latency result has `arrived` set from the start. `sat` elements count at that cycle (R100); `held`
data has an entry of the landing buffer (R62); `token` marks a barrier token, which is no load (R129, R268). -/
structure Pend where
  dest : Dest
  due : Nat
  val : Vec
  poison : Bool
  landed : Bool
  arrived : Bool
  req : Nat
  sat : Nat
  held : Bool := false
  token : Bool := false
  deriving DecidableEq, Repr

/-- Why a context waits (R160); the codes of R359 follow the first seven. -/
inductive Wait
  | regs | waitt | barw | spawn | desc | other | fetch
  | yielding (till : Nat)
  | unwinding (cause : Nat) (addr : Word) (slot issue : Nat)
  | stopping (cause : Nat) (fail : Bool)
  | ending
  deriving DecidableEq, Repr

/-- The state of a context (R160). -/
inductive Status | idle | held | ready | waiting (w : Wait) | halted
  deriving DecidableEq, Repr

/-- The task a context holds (R158, R166, R168, R180). -/
structure Task where
  asid : Nat
  nodeId : Word
  ncc : Nat
  queue : Nat
  ticket : Nat
  gang : Option (Nat × Nat)
  spawned : Bool
  accm : Nat
  order : Nat
  deriving DecidableEq, Repr

/-- An open containment region (R269, R355); `since` is the first request issued inside it. -/
structure Region where
  handler : Nat
  id : Nat
  hdepth : Nat
  since : Nat
  deriving DecidableEq, Repr

/-- One stream element: value and poison. -/
abbrev Elem := Int × Bool

/-- A packing pattern (R112): period in bits and fields (offset, width, sign-extend). -/
structure Pattern where
  period : Nat
  fields : List (Nat × Nat × Bool)
  deriving DecidableEq, Repr

/-- A stream register (R300-R308). `feed` 0 channel, 1 helper, 2 command. `next` counts elements read or pushed;
`bytes` holds helper bytes not yet cut into elements, or converted bytes not yet popped; `closing` is a write stream
after SFREE, `freed` a stream whose task has ended while commands still use it (R300), beside which `nextPat` is what a
later SPAT has attached for the next SBIND (R306). `task` is the binding task, `upd`
the place of its descriptor update in issue order (R99), `table` the codebook latched at SBIND, `excess` the elements
pushed beyond the extents; `sats`, `cen`, `wrote` and `bad` gather what a write has done so far (R98, R100, R33). -/
structure Stream where
  bound : Bool := false
  write : Bool := false
  feed : Nat := 0
  ch : Nat := 0
  desc : BitVec 1024 := 0
  dn : Nat := 0
  shift : Nat := 0
  mode : Nat := 0
  es : Int := 0
  pat : Option Pattern := none
  buf : List Elem := []
  next : Nat := 0
  bytes : List (Byte × Bool) := []
  pois : Bool := false
  seq : Nat := 0
  asid : Nat := 0
  closing : Bool := false
  freed : Bool := false
  nextPat : Option Pattern := none
  task : Nat := 0
  upd : Nat := 0
  key : Word := 0
  rstep : BitVec 32 := 0
  table : Option (List (Nat × Bool)) := none
  excess : Nat := 0
  sats : Nat := 0
  cen : Option Nat := none
  wrote : Nat := 0
  bad : Bool := false
  deriving DecidableEq, Repr

/-- A latched codebook entry: magnitudes and poison (R110). -/
abbrev CbEntry := Nat × Bool

/-- Loop registers (R246). -/
structure LoopRegs where
  count : Nat := 0
  sm1 : Nat := 0
  act : Bool := false
  x : Bool := false
  exited : Bool := false
  start : Nat := 0
  last : Nat := 0
  deriving DecidableEq, Repr

/-- Trap registers (R348). -/
structure TrapRegs where
  vecEn : Bool := false
  vecAddr : Nat := 0
  pc : Nat := 0
  code : Nat := 0
  unw : Bool := false
  addr : Word := 0
  slot : Nat := 0
  shadow : Bool := false
  issue : Nat := 0
  target : Nat := 0
  pc2 : Nat := 0
  code2 : Nat := 0
  crit : Bool := false
  hdepth : Nat := 0
  loopSave : LoopRegs := {}
  deriving DecidableEq, Repr

/-- Loss-scale registers (R276). -/
structure LossRegs where
  e : BitVec 8 := 0
  min : BitVec 8 := 0x80
  max : BitVec 8 := 0x7F
  cnt : BitVec 32 := 0
  int : BitVec 32 := 0x7D0
  floor : BitVec 32 := 0
  fte : Bool := false
  deriving DecidableEq, Repr

/-- Where a context goes at the end of its bundle: to an address after one shadow bundle, straight to an address, or
where a trap return has put it (R218, R242, R247, R350). -/
inductive Redirect | shadow (a : Nat) | to (a : Nat) | ret
  deriving DecidableEq, Repr

/-- One context of a core (R157-R160, R207, R212); `why` is its last waiting cause (R359); `events` counts its saturation
events without a limit (log entry 3). -/
structure Ctx where
  status : Status := .idle
  task : Option Task := none
  pc : Nat := 0
  issue : Nat := 0
  target : Option Nat := none
  sticky : Tab Instr := []
  g : Tab GReg := []
  v : Tab VReg := []
  p : Tab PReg := []
  k : Tab (BitVec 256) := []
  q : Tab Stream := []
  d : Tab (BitVec 1024) := []
  gb : Nat := 0
  vb : Nat := 0
  pb : Nat := 0
  pend : List Pend := []
  loop : LoopRegs := {}
  sat : Bool := false
  satcnt : Word := 0
  events : Nat := 0
  sperr : Bool := false
  sperrcnt : Word := 0
  rngkey : Word := 0
  rngctr : Word := 0
  rngstep : BitVec 32 := 0
  cbV : Bool := false
  cbAddr : Nat := 0
  cbTable : List CbEntry := []
  cpatSteps : BitVec 32 := 0
  cpatLen : Nat := 0
  ls : LossRegs := {}
  trap : TrapRegs := {}
  regions : List Region := []
  decl : Bool := false
  declFirst : Nat := 0
  declReq : Nat := 0
  loss : Nat := 0
  past : Tab Nat := []
  reported : List (Engine × Nat) := []
  reportedWin : List (Nat × Nat) := []
  descPend : List (Nat × Nat) := []
  argWait : Bool := false
  startAt : Nat := 0
  redirect : Option Redirect := none
  loopBegan : Bool := false
  stop : Option Bool := none
  why : Nat := 0
  deriving DecidableEq, Repr

/-! ## A logical core -/

/-- A run-queue entry (R164): what the task binds with. `released` is R340's; `cancelled` entries are removed. -/
structure Entry where
  entry : Nat
  asid : Nat
  args : Nat
  argLen : Nat
  dslots : Nat
  accm : Nat
  lpc : Option Nat
  spc : Option Nat
  nodeId : Word
  g10 : Word
  coords : List Word
  gang : Option (Nat × Nat)
  ticket : Nat
  released : Bool
  spawned : Bool
  ncc : Nat
  queue : Nat
  deriving DecidableEq, Repr

/-- An ACC tile (R55): the 128 elements of each row; a row not listed is 0. -/
structure Tile where
  rows : Tab (List (BitVec 32)) := []
  full : Bool := true
  poison : BitVec 128 := 0
  claim : Option Nat := none
  deriving DecidableEq, Repr

/-- A spill entry (R59); `loc` is the location number in the order of R58. -/
structure Spill where
  ctx : Nat
  dest : Dest
  loc : Nat
  val : Vec
  poison : Bool
  deriving DecidableEq, Repr

/-- A stationary buffer (R309): the kept positions and weights of column j are entry j of `cols`. -/
structure StatBuf where
  owner : Option Nat := none
  fmt : Nat := 0
  sparse : Bool := false
  west : Bool := false
  ready : Bool := true
  pois : Bool := false
  cols : List (List (Nat × Int)) := []
  deriving DecidableEq, Repr

/-- What a matrix command does. `load` carries the placement and the format of its own. `run` and `regrow` carry
the buffer as it stood at issue, none for a follow-on, which
takes it when it starts; `drainQ` carries the rows it still has to push; `tally` only reaches its number; `dead` is a
load whose task has ended. -/
inductive MxKind
  | load (buf : Nat) (sparse : Bool) (ks : Nat) (west : Bool) (fmt : Nat)
  | run (tile row0 rows buf : Nat) (w : Option StatBuf) (cpatSteps cpatLen : Nat)
  | drainQ (tile row0 : Nat) (clr : Bool) (q : Nat) (rows : List (List Int × Bool))
  | regrow (buf qo qm : Nat) (w : StatBuf)
  | tally
  | dead
  deriving DecidableEq, Repr

/-- A matrix-engine command (R319). Step i of its elements is due at `start` + i x `step`, or as soon as it comes when
`due` is none; `needs` lists each stream it consumes with the total and the elements of one step; `got` the elements
taken so far, `given` the groups pushed. `due` is the L1 cycle of its result; `num` its number; `chan` the channel and
number of the CPYM whose follow-on it is. -/
structure MxCmd where
  ctx : Nat
  task : Nat
  kind : MxKind
  start : Nat := 0
  step : Nat := 1
  due : Option Nat := none
  num : Option Nat := none
  needs : List (Nat × Nat × Nat) := []
  got : List (List Elem) := []
  given : Nat := 0
  chan : Option (Nat × Nat) := none
  deriving DecidableEq, Repr

/-- What an access has done so far: the bytes of each piece read with their poison, saturation events (R100), declined
addresses (R33), the census of R98 and the elements written. -/
structure Prog where
  data : List (List (Byte × Bool)) := []
  sat : Nat := 0
  declined : List Nat := []
  census : Option Nat := none
  written : Nat := 0
  deriving DecidableEq, Repr

/-- A collective's control block: SRC, DST, COUNT, KIND, OP, TYPE, ROOT, GROUP (R326). -/
structure CollBlk where
  src : Nat
  dst : Nat
  count : Nat
  kind : Nat
  op : Nat
  typ : Nat
  root : Nat
  group : Nat
  deriving DecidableEq, Repr

/-- A member's state of one 4 KiB piece of a collective (R389, R390): contributions received and their reduction, with
poison; whether its own is in; whether it has passed its partials on; the final values, whether it has passed them on
(`told`), whether they are in DST, and the changes by saturation. -/
structure CollPart where
  ncon : Nat := 0
  vals : List (Int × Bool) := []
  own : Bool := false
  sent : Bool := false
  result : Option (List (Int × Bool)) := none
  told : Bool := false
  written : Bool := false
  sat : Nat := 0
  deriving DecidableEq, Repr

/-- A collective that has started (R388, R389): its matching number on its group, the daymark of its run, its pieces by
key, the ranks that have acknowledged each chunk, and the piece being written. -/
structure CollRun where
  blk : CollBlk
  k : Nat
  run : Nat
  parts : Tab CollPart := []
  acks : Tab (List Nat) := []
  writing : Option Nat := none
  deriving DecidableEq, Repr

/-- A command queued in an engine other than the matrix engine; streams that SFREE or END has taken from their
register belong to the item (`own`). A grid command carries the bytes of its descriptor (`img`). -/
inductive EngCmd
  | copy (dst src : BitVec 1024) (dn : Option Nat) (shift mode : Nat) (es : Int)
  | cpym (q : Nat) (src : BitVec 1024) (op ext : Nat) (landed : Bool)
  | streamRd (q : Nat) (own : Option Stream)
  | streamWr (q : Nat) (own : Option Stream)
  | gridld (gd : Nat) (img : List (Byte × Bool)) (coords : Vec) (req : Nat) (poison : Bool) (d1 : Dest)
  | landing (req : Nat)
  | gridsc (gd : Nat) (img : List (Byte × Bool)) (coords g0 g1 : Vec) (p p0 p1 : Bool)
  | put (la off win pkg len : Nat) (sent : Bool)
  | get (la off win pkg len : Nat) (sent : Bool)
  | got (la : Nat) (data : List (Byte × Bool))
  | coll (blk : Nat)
  | collRun (r : CollRun)
  | bad
  deriving DecidableEq, Repr

/-- A queued command with its number, context and captures; it comes after the context's requests below `after`
(R133). `pos` counts the elements done, `prog` gathers what they did, `decl` the pages declined for it. -/
structure EngItem where
  num : Nat
  after : Nat
  core : Nat
  ctx : Nat
  task : Nat
  asid : Nat
  key : Word
  rstep : BitVec 32
  cmd : EngCmd
  pos : Nat := 0
  prog : Prog := {}
  decl : List Nat := []
  deriving DecidableEq, Repr

/-- An engine context's timeline (R132): last number issued, the counter, numbers finished beyond it, poisoned
numbers, queued commands. -/
structure Timeline where
  issued : Nat := 0
  done : Nat := 0
  fin : List Nat := []
  bad : List Nat := []
  queue : List EngItem := []
  deriving DecidableEq, Repr

/-- A start request of a helper core (R330). -/
structure HelperReq where
  ctx : Nat
  pc : Nat
  a0 : Word
  a1 : Word
  a2 : Word
  asid : Nat
  nodeId : Word
  deriving DecidableEq, Repr

/-- A loader or storer (R328-R335). `owes`: its halt has still to halt the context it serves, at that context's next
bundle boundary (R351). -/
structure Helper where
  x : Tab (BitVec 32) := []
  pc : Nat := 0
  running : Bool := false
  halted : Bool := false
  owes : Bool := false
  ctx : Nat := 0
  asid : Nat := 0
  starts : List HelperReq := []
  xbase : Nat := 0
  sel : Option (Nat × Nat) := none
  decl : Bool := false
  mcause : Nat := 0
  mepc : Nat := 0
  mtval : Nat := 0
  mcycle : Nat := 0
  minstret : Nat := 0
  reported : List (Engine × Nat) := []
  deriving DecidableEq, Repr

/-- Residency of a core (R357): running, clock-gated, power-gated; the last wakes up through EXIT_FROM_POWER_GATING. -/
inductive Gate | run | clock | power | waking
  deriving DecidableEq, Repr

/-- One logical core. -/
structure Core where
  ctxs : Tab Ctx := []
  runq : List Entry := []
  dslots : Nat := 512
  tags : Tab Word := []
  acc : Tab Tile := []
  spills : List Spill := []
  bufs : Tab StatBuf := []
  mx : List MxCmd := []
  mxT : Timeline := {}
  ch : Tab Timeline := []
  grid : Timeline := {}
  wp : Tab Timeline := []
  stage : Nat := 0
  cycle : Nat := 0
  frzcnt : Nat := 0
  frozenFor : Nat := 0
  nextOrder : Nat := 0
  spawnedBound : Nat := 0
  gate : Gate := .run
  fogged : Bool := false
  loader : Helper := {}
  storer : Helper := {}
  moving : Bool := false
  withheld : Bool := false
  deriving DecidableEq, Repr

/-! ## Memory accesses in flight -/

/-- The kind of an access (R31, KIND). -/
inductive AccKind | load | store | atomic | fetch | gridAdd | put | get | copyRead | copyWrite
  deriving DecidableEq, Repr

/-- One element of an access: bytes to read (`more` goes on with the piece before it), raw bytes to write (with poison),
a grid add (R152), one period of a packing pattern (R113) with the base address, the FMT width, unsigned, shift, mode and
its elements (linear offset, value, poison), or a typed element that the store path or R97 converts: base address and
linear offset in elements (R94), value, FMT width, unsigned, VQ2, shift, mode. -/
inductive Piece
  | read (va n : Nat)
  | more (va n : Nat)
  | add (va : Nat) (x : Int)
  | packed (va : Nat) (pat : Pattern) (base w : Nat) (uns : Bool) (shift mode : Nat) (elems : List (Int × Int × Bool))
  | raw (va : Nat) (data : List Byte) (poison : Bool)
  | elem (base : Nat) (lin : Int) (val : Int) (w : Nat) (uns vq : Bool) (shift mode : Nat) (poison : Bool)
  deriving DecidableEq, Repr

/-- How landed bytes form the result. -/
inductive Conv
  | sext (bits : Nat)
  | zext (bits : Nat)
  | vec
  | lanes (lw fmt : Nat) (idx : List Nat) (nibs : List Bool)
  deriving DecidableEq, Repr

/-- Where the result of an access goes: a register landing, a descriptor's census update, a register of the helper or
distributor core that waits for it, STAGE (R323), the event path (R272), V0 of a task that binds (R158), a barrier's
arrival count (R173), or nowhere; `own` is what an agent waits for under a tag of its own. -/
inductive Ret
  | none
  | reg (core x : Nat) (conv : Conv)
  | desc (core x dn : Nat) (shift : Nat) (es : Int) (d : BitVec 1024)
  | args (core x task : Nat)
  | stage (core k : Nat)
  | post (die : Nat) (words : List Word)
  | bar (core b gen : Nat)
  | own (tag : Nat)
  deriving DecidableEq, Repr

/-- Whether an agent waits for the access under a tag. -/
def Ret.owned : Ret → Bool
  | .own _ => true
  | _ => false

/-- How far an access has come: waiting at its source (R138, R140 rule 3), sent, in the hold buffer of its source at
its home (R142), or past it. -/
inductive Stage | flush | sent | held | home
  deriving DecidableEq, Repr

/-- An access in flight. `homes` lists the home die of each part of a tracked access with its number on the stream from
`src` (0 for a read), `deps` the pairs of R139 as (home, die, number), `decl` the pages declined so far; `rel` marks a
release, `need` the class the access asks for (R110, R147), `prog` what it has done; `cyc` is the clock cycle of a
scratchpad in which it reached a bank there, 0 for one that keeps its place ahead of all later ones (R40, R64). -/
structure Req where
  id : Nat
  agent : Agent
  kind : AccKind
  asid : Nat
  pieces : List Piece
  ret : Ret
  atom : Option (AtomOp × Nat × Bool × Nat × Option Nat)
  key : Word
  rstep : BitVec 32
  stage : Stage
  src : Nat
  homes : List (Nat × Nat)
  deps : List (Nat × Nat × Nat)
  decl : List Nat
  rel : Bool := false
  need : Option Nat := none
  prog : Prog := {}
  cyc : Nat := 0
  deriving DecidableEq, Repr

/-- What an access of an agent that waits for it has come to, until the agent takes it. -/
structure Result where
  agent : Agent
  tag : Nat
  prog : Prog
  decl : List Nat
  deriving DecidableEq, Repr

/-- Returned data on its way to the core (R62); `input` data waits at the core's input (R63). -/
structure Reply where
  id : Nat
  core : Nat
  x : Nat
  val : Vec
  poison : Bool
  sat : Nat
  input : Bool := false
  deriving DecidableEq, Repr

/-- A parked access (R28): its serving MTU (5 x die + MTU), its page, and the cause on record. -/
structure Parked where
  mtu : Nat
  asid : Nat
  page : Nat
  cause : Nat
  req : Req
  deriving DecidableEq, Repr

/-- A TLB entry (R27): a leaf or table pointer read at `level` for `asid` and the virtual prefix `tag`. -/
structure TlbEntry where
  asid : Nat
  level : Nat
  tag : Nat
  entry : Nat
  deriving DecidableEq, Repr

/-! ## A die -/

/-- A distributor core (R328, R337). It starts at offset 0 of its instruction memory; `resv` is the reservation of LR:
address, bytes and the value read; `decl` the flag of a declined store. -/
structure Dist where
  x : Tab Word := []
  pc : Nat := 2 ^ 63
  asid : Nat := 0
  halted : Bool := false
  wfi : Bool := false
  mcause : Nat := 0
  mepc : Word := 0
  mtval : Word := 0
  mstatus : Word := 0
  mtvec : Word := 0
  mie : Word := 0
  mscratch : Word := 0
  mcycle : Nat := 0
  minstret : Nat := 0
  resv : Option (Nat × Nat × Nat) := none
  decl : Bool := false
  deriving DecidableEq, Repr

/-- A scan record (R362). -/
structure Scan where
  pass : Nat := 0
  dirty : Bool := false
  retired : Bool := false
  scanning : Bool := false
  dirtywin : Nat := 0
  deriving DecidableEq, Repr

/-- LPMAP of a cluster (R361), and the rotation step under way: the physical core drained and the logical core it
served (R363); `taken`: in a reduced cluster, the die has since applied a map that takes it offline (R365). -/
structure LpMap where
  l : List Nat := [0, 1, 2, 3]
  relief : Nat := 4
  reduced : Bool := false
  retmask : Nat := 0
  step : Option (Nat × Nat) := none
  taken : Bool := false
  deriving DecidableEq, Repr

/-- End-to-end send state towards one package (R382). -/
structure SendState where
  last : Nat := 0
  acked : Nat := 0
  got : List Nat := []
  retry : List Packet := []
  deriving DecidableEq, Repr

/-- End-to-end receive state from one (package, die) source (R383); `owed` an acknowledgement is to be sent. -/
structure RecvState where
  cum : Nat := 0
  got : List Nat := []
  owed : Bool := false
  deriving DecidableEq, Repr

/-- An event-queue record (R344). -/
structure EvRec where
  kind : Nat
  words : List Word
  deriving DecidableEq, Repr

/-- A selection-log entry (R185): `record` holds the launch record's sixteen words, or nothing for an offline map. -/
structure LogEntry where
  seq : Nat
  kind : Nat
  queue : Nat
  slot : Nat
  record : List Word
  map : BitVec 640
  deriving DecidableEq, Repr

/-- A node-table entry of a die's firmware (R432): members on this die, members ended. -/
structure Share where
  seq : Nat
  ncc : Nat
  nccEnd : Nat
  queue : Nat
  cev : Bool
  asid : Nat
  nodeId : Word
  mem : Nat
  ended : Nat
  deriving DecidableEq, Repr

/-- An add of 1 that a die's firmware owes (R188, R431): its address, the log SEQ of its node, the new ENDED (0 for a
spawned task), its address space and its target: 0 COUNT of a bound task's node, 1 FAILS, 2 COUNT for a spawned task. -/
structure AddJob where
  addr : Nat
  seq : Nat
  ended : Nat
  asid : Nat
  target : Nat
  deriving DecidableEq, Repr

/-- One operation that a die's firmware has still to do (R433, R434): `jwr…` append to the journal. -/
inductive Todo
  | takeOver
  | jwrNode (seq queue prio slot : Nat)
  | log (e : LogEntry)
  | logFix (seq queue slot : Nat)
  | head (seq queue slot : Nat)
  | members (seq queue prio : Nat)
  | jwrBind (seq gang member core : Nat)
  | bind (seq gang member core : Nat)
  | ticket (seq ticket : Nat)
  | rel (ticket : Nat)
  | table (seq mem : Nat)
  | copy (seq queue prio : Nat)
  | jwrDone (seq : Nat)
  | progress (seq : Nat)
  | taskEnd (r : EvRec)
  | ended (seq n : Nat)
  | intent (a : AddJob)
  | amo (a : AddJob)
  | jwrAdd (a : AddJob) (old : Nat) (lost : Bool)
  | post (seq : Nat)
  | fails (seq : Nat)
  | kicks
  deriving DecidableEq, Repr

/-- A page on a die's retirement list (R37): the piece at `va` that lies in a faulted frame; `marked` while it migrates,
`asked` once the firmware has taken a fault record of the page, which it answers itself (R31). -/
structure Migration where
  asid : Nat
  va : Nat
  frame : Nat
  marked : Bool
  asked : Bool := false
  deriving DecidableEq, Repr

/-- One die; `rowErrs` counts the corrected errors of the last 24 hours in each row and `badRows` are the rows with an
uncorrectable error (R73); `todo` is what the resident firmware has still to do, in order (R433); `cancelled` are the
tickets that lx.rel has cancelled (R340), `answers` the answer register of each MTU (R27): address space, page, whether it declines. -/
structure Die where
  jtail : Nat := 0
  role : Bool := false
  intrap : Bool := false
  kicks : BitVec 64 := 0
  bcnt : Tab Nat := []
  cancelled : List Nat := []
  evq : List EvRec := []
  evHeld : Bool := false
  evWait : List EvRec := []
  lp : Tab LpMap := []
  scan : Tab Scan := []
  amoAddr : Word := 0
  amoOld : Word := 0
  amoJseq : Nat := 0
  prim : Dist := {}
  relf : Dist := {}
  lost : Bool := false
  sent : Tab Nat := []
  acked : Tab Nat := []
  applied : Tab Nat := []
  execd : List (Nat × Nat) := []
  tlb : Tab (List TlbEntry) := []
  answers : Tab (Nat × Nat × Bool) := []
  migrating : List (Nat × Nat) := []
  repeats : List (Nat × Nat × Nat) := []
  prov : List (Nat × Nat) := []
  untracked : List Nat := []
  clock : Nat := 0
  send : Tab SendState := []
  rowFaults : List (Nat × Nat) := []
  corrected : Tab Nat := []
  rowErrs : Tab Nat := []
  badRows : List Nat := []
  todo : List Todo := []
  retire : List Migration := []
  deriving DecidableEq, Repr

/-! ## The package -/

/-- A command queue (R177, R189). `stale`: the head slot has an unsatisfied dependence and nothing has yet asked for
another look (R184). `saves` are the suspends that wait for the node boundary, port and save address; `dying`: a destroy
waits for it. -/
structure Queue where
  v : Bool := false
  owner : Nat := 0
  prio : Nat := 0
  caplog : Nat := 0
  asid : Nat := 0
  base : Nat := 0
  heada : Nat := 0
  tail : BitVec 32 := 0
  head : BitVec 32 := 0
  state : Nat := 0
  why : Nat := 0
  selcnt : Nat := 0
  lastseq : Nat := 0
  depsat : Nat := 0
  stale : Bool := false
  dying : Bool := false
  saves : List (Nat × Nat) := []
  saved : Nat := 0
  deriving DecidableEq, Repr

/-- A window table entry (R80); `closing` the ports that wait for its deregistration (R86), `bad` the poisoned put
numbers. -/
structure Window where
  v : Bool := false
  puten : Bool := false
  geten : Bool := false
  asid : Nat := 0
  base : Nat := 0
  size : Nat := 0
  count : Nat := 0
  rejects : Nat := 0
  closing : List Nat := []
  bad : List Nat := []
  deriving DecidableEq, Repr

/-- A put accepted and not yet applied (R82), or a get accepted and not yet answered. -/
structure PutFlight where
  id : Nat
  p : WinPacket
  get : Bool
  done : Bool
  bad : Bool
  deriving DecidableEq, Repr

/-- An address space (R16, R35). -/
structure AddrSpace where
  root : Nat
  owner : Nat
  deriving DecidableEq, Repr

/-- A barrier (R171): ARR of each member core; `flying` lists the arrivals whose release is not yet through, as core and
generation (R131). -/
structure Barrier where
  mask : BitVec 640 := 0
  gen : Nat := 0
  arr : Tab Nat := []
  flying : List (Nat × Nat) := []
  deriving DecidableEq, Repr

/-- An aperture entry (R392). -/
structure Aperture where
  v : Bool := false
  pkg : Nat := 0
  asid : Nat := 0
  vbase : Nat := 0
  deriving DecidableEq, Repr

/-- The answer in an SPDM mailbox (R440): the version in BCD; what the device is capable of; the algorithms chosen; the
digest of each certificate slot's chain; a slot's chain; the proof of a challenge, for the chain's digest; the measurement
snapshot. -/
inductive SpdmAnswer
  | version (bcd : Nat)
  | capabilities (certificates challenge measurements sessions keyExchange : Bool)
  | algorithms (ecdsaP384 sha384 others : Bool)
  | digests (slots : List (Nat × List Byte))
  | certificate (slot : Nat) (chain : List Byte)
  | challengeAuth (slot : Nat) (digest signature : List Byte)
  | measurements (snapshot : List (Nat × List Byte))
  deriving DecidableEq, Repr

/-- An aperture access that a port has still to finish (R391, R392): a read of `size` bytes, or a write of `data`; `tag`
tells it from the others of the port, `sent` says that it is under way. One that came from the head of the mooring (`at_`)
names the package that asked, the address space and the address. -/
structure ApReq where
  ordered : Bool
  off : Nat
  size : Nat
  data : Option (List Byte)
  tag : Nat := 0
  sent : Bool := false
  at_ : Option (Nat × Nat × Nat) := none
  deriving DecidableEq, Repr

/-- A port record of 64 bytes (R345): word 0's TYPE, die and queue, and words 1-7. -/
structure PortRec where
  held : Bool := false
  typ : Nat
  die : Nat
  queue : Nat
  words : List Word
  deriving DecidableEq, Repr

/-- A symbol of an address space (R401): name, global, size, address, the object it came from. -/
structure Symbol where
  name : List Byte
  global : Bool
  size : Nat
  addr : Nat
  obj : Nat
  deriving DecidableEq, Repr

/-- A load whose segments are being written (R400): the address space, the image, the new table entries, the names that it
uses from the table. -/
structure Linking where
  asid : Nat
  image : Nat
  defs : List Symbol
  uses : List (List Byte)
  deriving DecidableEq, Repr

/-- A control port (R195, R196, R392, R393). `linkLost`: its link has been reported lost; `gone`: no link of the bridge is
left, so that no access comes through (R395); `regq`: register writes that have come across the fabric (R391). `mailbox` holds the
words of its SPDM mailbox (R440); `answer` holds the
data of the last aperture or register read. -/
structure Port where
  op0 : Nat := 0
  op1 : Nat := 0
  op2 : Nat := 0
  op3 : Nat := 0
  busy : Bool := false
  stat : Nat := 0
  code : Nat := 0
  doneN : Nat := 0
  evbase : Nat := 0
  evcap : Nat := 0
  evtail : BitVec 32 := 0
  evhead : BitVec 32 := 0
  evlost : Nat := 0
  brerr : Nat := 0
  ap : Tab Aperture := []
  spdm : Option SpdmAnswer := none
  mailbox : Tab Nat := []
  recs : List PortRec := []
  linkLost : Bool := false
  gone : Bool := false
  msix : Nat := 0
  answer : Option (List Byte × Bool) := none
  running : Option (Nat × Cmd) := none
  waitNo : Nat := 0
  linking : Option Linking := none
  apq : List ApReq := []
  regq : List (Nat × Nat) := []
  deriving DecidableEq, Repr

/-- Selection and distribution cursors of the package (R183, R186). -/
structure Cursors where
  rr : Tab Nat := []
  cur : Nat := 0
  dcur : Nat := 0
  cc : Tab Nat := []
  offline : BitVec 640 := 0
  deriving DecidableEq, Repr

/-- A collective group (R387); `started` counts the collectives matched on it, `closing` are the ports that wait for its
deregistration. -/
structure Group where
  tree : Bool
  cmb : Bool
  asid : Nat
  size : Nat
  rank : Nat
  list : List Nat
  started : Nat
  closing : List Nat := []
  deriving DecidableEq, Repr

/-- A loaded object: image address, ASID, names it resolved against the table (R403). -/
structure Loaded where
  image : Nat
  asid : Nat
  uses : List (List Byte)
  deriving DecidableEq, Repr

/-- Checkpoint registers (R367). `phase` 0 running, 1 quiescing, 2 quiesced, 3 capturing; `capFailed` is the second-tier
port lost during the capture. -/
structure Check where
  cur : Nat := 1
  committed : Nat := 0
  cslot : Nat := 0
  pending : Nat := 0
  pslot : Nat := 0
  phase : Nat := 0
  ready : Bool := false
  disabled : Bool := false
  rbreq : Bool := false
  retireSince : Bool := false
  capFailed : Option Nat := none
  restoring : Bool := false
  rebuilding : Bool := false
  parityDue : Bool := false
  standby : Bool := false
  deriving DecidableEq, Repr

/-- What a capture saves beside the image (R370). -/
structure Saved where
  gen : Nat := 0
  queues : Tab Queue := []
  cursors : Cursors := {}
  counts : List (Nat × Nat) := []
  log : List LogEntry := []
  seq : Nat := 0
  deriving DecidableEq, Repr, Inhabited

/-- The saved record of a dead package (R377), by a fresh-value number. -/
opaque Config.rebuiltSaved : Nat → Saved

/-- A fabric link (R379): `resends` counts the CRC failures of one flit in a row, `last` is the packet that left on it
last. -/
structure Link where
  dead : Bool := false
  resends : Nat := 0
  reported : Bool := false
  last : Option Packet := none
  deriving DecidableEq, Repr

/-- A combining-table entry (R390): the packet that opened it, what it holds and its contributions, the numbers of the
packets that have joined it. -/
structure Combine where
  key : Nat
  ncon : Nat
  vals : List (Int × Bool)
  first : Packet
  also : List (Nat × Nat × Nat) := []
  deriving DecidableEq, Repr

/-- A put or a get's data of which some parts have arrived (R380): what it is, its whole length, the parts by place. -/
structure Parts where
  src : Nat
  body : Payload
  total : Nat
  got : List (Nat × List (Byte × Bool))
  deriving DecidableEq, Repr

/-- The switch, the daymark and the keeper (R379-R390); link 16 x face + link; `recv` by 32 x package + die;
`keeperFrom` is the daymark that the change under way starts from, `keeperAt` the package that has taken over as keeper;
`parts` what has arrived of puts and data in several packets; `wait` holds what a source still has to send (die, class,
destination, CMB, body) while its window is closed (R382); `identity` the coordinates and rank a standby package takes
at the next daymark change (R377). -/
structure Fabric where
  links : Tab Link := []
  daymark : Nat := 0
  table : List Nat := []
  staged : Option (Nat × List Nat) := none
  errors : Nat := 0
  out : List Packet := []
  wait : List (Nat × Nat × Nat × Bool × Payload) := []
  combine : List Combine := []
  pieces : List Payload := []
  keeperSelf : Bool := false
  keeperDeaths : List (Nat × Nat × Nat) := []
  keeperNext : List (Nat × Nat × Nat) := []
  keeperAt : Option Nat := none
  keeperBusy : Bool := false
  keeperFrom : Nat := 0
  confirmed : List Nat := []
  order : Option Nat := none
  recv : Tab RecvState := []
  parts : List Parts := []
  identity : Option (Nat × Nat) := none
  coords : Nat := 0
  rank : Nat := 0
  deriving DecidableEq, Repr

/-- A resident image as installed (R409): its bytes, and its segments by address after the relocations. -/
structure Resident where
  image : List Byte := []
  segs : List (Nat × List Byte) := []
  deriving DecidableEq, Repr

/-- Management and boot registers (R358, R436-R443); `secondOff`: the second tier is disabled (R77); `seenImage`, `seenFw`:
the configuration image and the distributor firmware that the last boot has measured (R439). -/
structure Mgmt where
  fog : Nat := 2000000
  bootPhase : Nat := 0
  recov : Bool := false
  bootErr : Nat := 0
  pwrcap : Nat := 4600
  tlim : Nat := 95
  tmax : Nat := 0
  pwrnow : Nat := 0
  supply : Bool := true
  tripped : Bool := false
  secondOff : Bool := false
  image : List Byte := []
  nextImage : Option (List Byte) := none
  seenImage : List Byte := []
  seenFw : List Byte := []
  stagedFw : Option Resident := none
  fw : List Byte := []
  helperLib : List Byte := []
  scanPats : Resident := {}
  nextPats : Option Resident := none
  failedDies : List Nat := []
  deriving DecidableEq, Repr

/-- An error of a memory, which comes from outside the model: an uncorrectable one in the line with a key (R41, R68,
R72, R75) or in a row of an ACC tile (R55), a corrected one at an offset of a die's device memory (R73), and one such
error whose 24 hours are over. -/
inductive MemError
  | line (key : Nat)
  | acc (core tile row : Nat)
  | corrected (die x : Nat)
  | aged (die x : Nat)
  deriving DecidableEq, Repr

/-- What moves next: an input event, a turn of an agent, or a memory error. The model's own field (log entry 3). -/
inductive Input | event (i : Instr) | turn (a : Agent) | error (e : MemError)
  deriving DecidableEq, Repr

/-- What the issue check of a native operation found, for the bundle that holds it; the model's own field. -/
inductive Mark | clean | waits | early | traps
  deriving DecidableEq, Repr

/-- A spawn packet on its way (R167, R169): its target core and its entry. -/
structure SpawnPkt where
  core : Nat
  src : Nat × Nat
  after : Nat
  entry : Entry
  deriving DecidableEq, Repr

/-- The package. -/
structure State where
  mem : List Host.Cell
  poison : List Nat
  cores : Tab Core
  dies : Tab Die
  barriers : Tab Barrier
  queues : Tab Queue
  ports : Tab Port
  lamp : Nat
  windows : Tab Window
  spaces : Tab AddrSpace
  parked : List Parked
  net : List Req
  replies : List Reply
  acks : List (Nat × Nat × Nat)
  nextId : Nat
  puts : List PutFlight
  spawns : List SpawnPkt
  logSeq : Nat
  mapPend : List (BitVec 640)
  coll : Timeline
  groups : Tab Group
  symbols : Tab (List Symbol)
  objects : List Loaded
  ck : Check
  saved : Tab Saved
  fabric : Fabric
  mgmt : Mgmt
  cxlDown : List Nat
  results : List Result
  agenda : List Input
  focus : Agent
  before : Option (Ctx × Nat)
  mark : Mark
  fresh : Nat
  deriving DecidableEq, Repr

/-- Package reset (R436): every register at the value its table gives; what the spec leaves open is named in log
entries 2 to 5. -/
def State.reset : State where
  mem := []
  poison := []
  cores := []
  dies := []
  barriers := []
  queues := []
  ports := []
  lamp := 0
  windows := []
  spaces := []
  parked := []
  net := []
  replies := []
  acks := []
  nextId := 1
  puts := []
  spawns := []
  logSeq := 0
  mapPend := []
  coll := {}
  groups := []
  symbols := []
  objects := []
  ck := {}
  saved := []
  fabric := {}
  mgmt := {}
  cxlDown := []
  results := []
  agenda := []
  focus := .none
  before := none
  mark := .clean
  fresh := 0

end Sys2Proof.Machine
end

