-- ==== Sys2Proof/Machine/Ops.lean ====
section
/-! DEFINITION. Named operations over the state: the parts of the package, memory bytes and their poison, register
writes and their result cycles, records, trap entry and return, unwinding, and the checks an operation makes at issue. -/

namespace Sys2Proof.Machine

/-! ## Parts of the package -/

def State.core (s : State) (c : Nat) : Core := s.cores.get c {}
def State.setCore (s : State) (c : Nat) (k : Core) : State := { s with cores := s.cores.set c k }
def State.onCore (s : State) (c : Nat) (f : Core → Core) : State := s.setCore c (f (s.core c))

def Core.ctx (k : Core) (x : Nat) : Ctx := k.ctxs.get x {}
def Core.setCtx (k : Core) (x : Nat) (v : Ctx) : Core := { k with ctxs := k.ctxs.set x v }
def Core.onCtx (k : Core) (x : Nat) (f : Ctx → Ctx) : Core := k.setCtx x (f (k.ctx x))

def State.ctx (s : State) (c x : Nat) : Ctx := (s.core c).ctx x
def State.setCtx (s : State) (c x : Nat) (v : Ctx) : State := s.setCore c ((s.core c).setCtx x v)
def State.onCtx (s : State) (c x : Nat) (f : Ctx → Ctx) : State := s.setCtx c x (f (s.ctx c x))

/-- The core and the context in focus; native operations act on them. -/
def State.fc (s : State) : Nat := match s.focus with | .ctx c _ => c | _ => 0
def State.fx (s : State) : Nat := match s.focus with | .ctx _ x => x | _ => 0

/-- The context in focus as it stands. -/
def State.cur (s : State) : Ctx := s.ctx s.fc s.fx
/-- The context as it stood before the bundle: what operands read (R206). -/
def State.old (s : State) : Ctx := (s.before.map (·.1)).getD s.cur
/-- The place in issue order at which the bundle begins. -/
def State.since (s : State) : Nat := (s.before.map (·.2)).getD s.nextId
/-- Changes the context in focus. -/
def State.onCur (s : State) (f : Ctx → Ctx) : State := s.onCtx s.fc s.fx f
/-- Changes the core in focus. -/
def State.onFc (s : State) (f : Core → Core) : State := s.onCore s.fc f
/-- The core in focus. -/
def State.fcore (s : State) : Core := s.core s.fc

def State.die (s : State) (d : Nat) : Die := s.dies.get d {}
def State.onDie (s : State) (d : Nat) (f : Die → Die) : State := { s with dies := s.dies.set d (f (s.die d)) }
def State.port (s : State) (p : Nat) : Port := s.ports.get p {}
def State.onPort (s : State) (p : Nat) (f : Port → Port) : State := { s with ports := s.ports.set p (f (s.port p)) }
def State.queue (s : State) (q : Nat) : Queue := s.queues.get q {}
def State.onQueue (s : State) (q : Nat) (f : Queue → Queue) : State := { s with queues := s.queues.set q (f (s.queue q)) }
def State.barrier (s : State) (b : Nat) : Barrier := s.barriers.get b {}
def State.window (s : State) (w : Nat) : Window := s.windows.get w {}
def State.onWindow (s : State) (w : Nat) (f : Window → Window) : State :=
  { s with windows := s.windows.set w (f (s.window w)) }

/-- The die of a logical core (R157). -/
def dieOf (core : Nat) : Nat := core / 20

/-- The core an agent belongs to; none for an agent of R15. -/
def Agent.core? : Agent → Option Nat
  | .ctx c _ => some c
  | .loader c => some c
  | .storer c => some c
  | .engine _ .coll => Option.none
  | .engine c _ => some c
  | _ => Option.none

/-- The die an agent sends from (R136); the host and window arrivals enter at die 0. -/
def Agent.die : Agent → Nat
  | .ctx c _ => dieOf c
  | .loader c => dieOf c
  | .storer c => dieOf c
  | .dist d => d
  | .engine c _ => dieOf c
  | _ => 0

/-! ## Memory bytes -/

/-- The byte at a key; an unlisted key reads as 0 (log entries 4 and 6). -/
def Memory.get (m : List Host.Cell) (k : Nat) : Byte :=
  match m with
  | [] => 0
  | (j, b) :: r => if j = k then b else Memory.get r k

/-- Inserts a cell in key order. -/
def Memory.insert (m : List Host.Cell) (k : Nat) (b : Byte) : List Host.Cell :=
  match m with
  | [] => [(k, b)]
  | (j, v) :: r => if k < j then (k, b) :: (j, v) :: r else (j, v) :: Memory.insert r k b

/-- Writes a byte; a byte equal to what an unlisted key reads as is not listed. -/
def Memory.set (m : List Host.Cell) (k : Nat) (b : Byte) : List Host.Cell :=
  let r := m.filter fun c => c.1 ≠ k
  if b = 0 then r else Memory.insert r k b

/-- The canonical form: keys strictly rising, no byte listed that reads so unlisted. -/
abbrev Memory.wf (m : List Host.Cell) : Prop :=
  m.Pairwise (fun a b => a.1 < b.1) ∧ ∀ c ∈ m, c.2 ≠ 0

/-- Writes consecutive bytes. -/
def Memory.write (m : List Host.Cell) (k : Nat) (bs : List Byte) : List Host.Cell :=
  match bs with
  | [] => m
  | b :: r => Memory.write (Memory.set m k b) (k + 1) r

/-- Reads consecutive bytes. -/
def Memory.read (m : List Host.Cell) (k : Nat) : Nat → List Byte
  | 0 => []
  | n + 1 => Memory.get m k :: Memory.read m (k + 1) n

/-- Removes every byte of a range: they read as 0. -/
def Memory.clear (m : List Host.Cell) (k n : Nat) : List Host.Cell := m.filter fun c => c.1 < k ∨ k + n ≤ c.1

/-! Keys of the spaces. Device memory: the physical address. -/

def secondBase : Nat := 2 ^ 48
def ringBase : Nat := 2 ^ 52
def spadKey (core off : Nat) : Nat := 2 ^ 53 + core * 2 ^ 23 + off
def istoreKey (core h off : Nat) : Nat := 2 ^ 54 + (2 * core + h) * 2 ^ 15 + off
def dstoreKey (core h off : Nat) : Nat := 2 ^ 55 + (2 * core + h) * 2 ^ 14 + off
def imemKey (die r off : Nat) : Nat := 2 ^ 56 + (2 * die + r) * 2 ^ 18 + off
def journalKey (die off : Nat) : Nat := 2 ^ 57 + die * 2 ^ 20 + off
def hostKey (hb : Nat) : Nat := 2 ^ 80 + hb
def deviceKey (die off : Nat) : Nat := die * 2 ^ 36 + off

def State.byte (s : State) (k : Nat) : Byte := Memory.get s.mem k
/-- Consecutive bytes, read from the cells of their range (`Memory.read s.mem k n`, in one pass). -/
def State.bytes (s : State) (k n : Nat) : List Byte :=
  Memory.read (s.mem.filter fun c => k ≤ c.1 && c.1 < k + n) k n
/-- The little-endian value of `n` bytes. -/
def State.nat (s : State) (k n : Nat) : Nat := leNat (s.bytes k n)

/-- Whether a 64-byte line is poisoned (R41, R68, R72). -/
def State.linePoison (s : State) (k : Nat) : Bool := s.poison.contains (k / 64)

/-- Whether any line that bytes [k, k + n) touch is poisoned. -/
def State.poisoned (s : State) (k n : Nat) : Bool := s.poison.any fun l => k / 64 ≤ l && l * 64 < k + n && 0 < n

/-- Inserts into a sorted list without repeats. -/
def insSorted (l : List Nat) (x : Nat) : List Nat :=
  match l with
  | [] => [x]
  | y :: r => if x < y then x :: y :: r else if x = y then y :: r else y :: insSorted r x

/-- The poison of the lines after a write of [k, k + n): poisoned data poisons every line it touches; clean data clears
the lines it covers whole (R41, R68, R72). -/
def poisonAfter (ps : List Nat) (k n : Nat) (poison : Bool) : List Nat :=
  if n = 0 then ps
  else if poison then (List.range ((k + n - 1) / 64 - k / 64 + 1)).foldl (fun l i => insSorted l (k / 64 + i)) ps
  else ps.filter fun l => ¬ (k ≤ l * 64 ∧ l * 64 + 64 ≤ k + n)

/-- Writes bytes at their home with their poison. -/
def State.store (s : State) (k : Nat) (bs : List Byte) (poison : Bool) : State :=
  { s with mem := Memory.write s.mem k bs, poison := poisonAfter s.poison k bs.length poison }

/-- Writes bytes where no poison is kept (host memory, stores of helper and distributor cores). -/
def State.poke (s : State) (k : Nat) (bs : List Byte) : State := { s with mem := Memory.write s.mem k bs }

/-! ## Records (R344, R345, R393) -/

/-- Port records of a die that wait in its event queue while their port's ring is full or its link lost (R393, R395). -/
def State.heldRecs (s : State) (d : Nat) : Nat :=
  (s.ports.map fun p => (p.2.recs.filter fun r => r.held && r.die = d).length).sum

/-- What a die's event queue of 4,096 records holds (R344). -/
def State.evLoad (s : State) (d : Nat) : Nat := (s.die d).evq.length + s.heldRecs d

/-- A record sent to a die's event queue (R344); it waits until there is room. -/
def State.postEvent (s : State) (d kind : Nat) (words : List Word) : State :=
  s.onDie d fun k => { k with evWait := k.evWait ++ [{ kind, words }] }

/-- A port record on one control port (R345). -/
def State.postPort (s : State) (p typ die queue : Nat) (words : List Word) : State :=
  s.onPort p fun k => { k with recs := k.recs ++ [{ typ, die, queue, words }] }

/-- A port record on both control ports. -/
def State.postBoth (s : State) (typ die queue : Nat) (words : List Word) : State :=
  (s.postPort 0 typ die queue words).postPort 1 typ die queue words

/-! ## Registers (R202, R207, R208) -/

/-- phys of a G or V register under a base (R202). -/
def rot32 (base n : Nat) : Nat := if n < 32 then n else 32 + (n - 32 + base) % 32

/-- phys of a P register (R202). -/
def rot8 (base n : Nat) : Nat := if n < 8 then n else 8 + (n - 8 + base) % 8

/-- G by physical number; G0 reads 0 and is always full (R207). -/
def Ctx.gAt (k : Ctx) (p : Nat) : GReg := if p = 0 then {} else k.g.get p {}
def Ctx.vAt (k : Ctx) (p : Nat) : VReg := k.v.get p {}
/-- P by physical number; P0 reads 1 (R207). -/
def Ctx.pAt (k : Ctx) (p : Nat) : PReg := if p = 0 then { val := true } else k.p.get p {}
def Ctx.kAt (k : Ctx) (n : Nat) : BitVec 256 := k.k.get n 0
def Ctx.qAt (k : Ctx) (n : Nat) : Stream := k.q.get n {}
def Ctx.dAt (k : Ctx) (n : Nat) : BitVec 1024 := k.d.get n 0

/-- A register read under the bases of the state before the bundle. -/
def State.g (s : State) (n : Nat) : GReg := s.old.gAt (rot32 s.old.gb n)
def State.v (s : State) (n : Nat) : VReg := s.old.vAt (rot32 s.old.vb n)
def State.p (s : State) (n : Nat) : PReg := s.old.pAt (rot8 s.old.pb n)
def State.k (s : State) (n : Nat) : BitVec 256 := s.old.kAt n

/-- Destinations under the bases of the state before the bundle (R202). -/
def State.dg (s : State) (n : Nat) : Dest := .g (rot32 s.old.gb n)
def State.dv (s : State) (n : Nat) : Dest := .v (rot32 s.old.vb n)
def State.dp (s : State) (n : Nat) : Dest := .p (rot8 s.old.pb n)

/-- Writes a register of a context: full, with the poison given; G0 and P0 discard (R207, R211). -/
def Ctx.put (k : Ctx) (d : Dest) (val : Vec) (poison : Bool) : Ctx :=
  match d with
  | .g n => if n = 0 then k else { k with g := k.g.set n { val := val.setWidth 64, full := true, poison } }
  | .v n => { k with v := k.v.set n { val, full := true, poison } }
  | .p n => if n = 0 then k else { k with p := k.p.set n { val := val.getLsbD 0, full := true } }
  | .k n => { k with k := k.k.set n (val.setWidth 256) }
  | .acc _ => k

/-- Marks a register empty; K registers are never empty (R208). -/
def Ctx.empty (k : Ctx) (d : Dest) : Ctx :=
  match d with
  | .g n => if n = 0 then k else { k with g := k.g.set n { k.gAt n with full := false } }
  | .v n => { k with v := k.v.set n { k.vAt n with full := false } }
  | .p n => if n = 0 then k else { k with p := k.p.set n { k.pAt n with full := false } }
  | .k _ => k
  | .acc _ => k

/-- Frees the spill entry of a register (R60). -/
def Core.unspilled (k : Core) (x : Nat) (d : Dest) : Core :=
  { k with spills := k.spills.filter fun e => ¬ (e.ctx = x ∧ e.dest = d) }

/-- A write that reaches its register now. -/
def Core.put (k : Core) (x : Nat) (d : Dest) (val : Vec) (poison : Bool) : Core :=
  (k.onCtx x fun c => c.put d val poison).unspilled x d

/-- Whether a destination discards its writes (R207). -/
def Dest.discards : Dest → Bool
  | .g n => n = 0
  | .p n => n = 0
  | _ => false

/-- Counts `n` saturation events on a context (R100); SATCNT holds at 2^64 - 1. -/
def Ctx.count (k : Ctx) (n : Nat) : Ctx :=
  if n = 0 then k
  else { k with sat := true, satcnt := BitVec.ofNat 64 (min (k.satcnt.toNat + n) (2 ^ 64 - 1)), events := k.events + n }

/-- A result of latency L of the operation that issues now (R208, R217): at latency 1 it is written at the end of this
cycle; later it is pending, its destination empty. `sat` elements count at the result cycle (R100). -/
def State.result (s : State) (L : Nat) (d : Dest) (val : Vec) (poison : Bool) (sat : Nat) : State :=
  if L ≤ 1 then s.onFc fun k => (k.put s.fx d val poison).onCtx s.fx fun c => c.count sat
  else s.onFc fun k => k.onCtx s.fx fun c =>
    let c := c.empty d
    { c with pend := c.pend ++ [{ dest := d, due := k.cycle + L, val, poison, landed := false, arrived := true,
                                  req := 0, sat }] }

/-- A named landing at c + N (R213, R214) for request `req`; `token` marks a barrier token. -/
def State.landAt (s : State) (N : Nat) (d : Dest) (req : Nat) (token : Bool) : State :=
  s.onFc fun k => k.onCtx s.fx fun c =>
    let c := c.empty d
    { c with pend := c.pend ++ [{ dest := d, due := k.cycle + N, val := 0, poison := false, landed := true, arrived := false,
                                  req, sat := 0, token }] }

/-- A landing whose data is on its way from the start, in its place in issue order; early data takes an entry of the
landing buffer like any other (R62). -/
def State.landKnown (s : State) (N : Nat) (d : Dest) (token : Bool) (val : Vec) (poison : Bool) : State :=
  ({ s with nextId := s.nextId + 1
            replies := s.replies ++ [{ id := s.nextId, core := s.fc, x := s.fx, val, poison, sat := 0 }] } : State).landAt
    N d s.nextId token

/-- Whether a register has a pending write (R210). -/
def Ctx.pending (k : Ctx) (d : Dest) : Bool := !d.discards && k.pend.any fun p => p.dest = d

/-- A free-value number: the counter it reads and the state with the counter advanced. -/
def State.draw (s : State) : Nat × State := (s.fresh, { s with fresh := s.fresh + 1 })

/-- A landing that is poisoned without data: its bits are a free value (log entry 57). -/
def State.landLost (s : State) (N : Nat) (d : Dest) : State :=
  s.draw.2.landKnown N d false (Config.lostValue s.draw.1) true

/-! ## Trap entry, return and unwinding (R347-R356) -/

/-- The halt record of R351. -/
def haltRecord (core x code code2 : Nat) (dbl : Bool) : List Word :=
  [BitVec.ofNat 64 (core % 20 + x * 32), BitVec.ofNat 64 (code + code2 * 256 + dbl.toNat * 65536), 0, 0]

/-- A trap or halt ends the sticky records of R201 and the pending branch target. -/
def Ctx.noSticky (k : Ctx) : Ctx := { k with sticky := [], target := none, redirect := none }

/-- The first trap's registers (R348, R349). -/
def Ctx.recordTrap (k : Ctx) (cause : Nat) (addr : Word) (slot : Nat) : Ctx :=
  { k with trap := { k.trap with
      pc := k.pc, code := cause, unw := false, addr, slot, shadow := k.target.isSome, issue := k.issue,
      target := k.target.getD 0 / 4 } }

/-- An active loop is abandoned: one that is not active keeps its registers (R249). -/
def LoopRegs.dropped (l : LoopRegs) : LoopRegs := if l.act then { l with act := false, x := false, exited := false } else l

/-- TRAP ENTRY (R349), HDEPTH below 15, CRIT 0, a handler installed: the loop of HDEPTH 0 is saved, another abandoned. -/
def Ctx.enterTrap (k : Ctx) (cause : Nat) (addr : Word) (slot cycle : Nat) : Ctx :=
  let r := (k.recordTrap cause addr slot).noSticky
  { r with
    trap := { r.trap with loopSave := if k.trap.hdepth = 0 then k.loop else k.trap.loopSave
                          hdepth := k.trap.hdepth + 1, crit := true }
    loop := if k.trap.hdepth = 0 then { k.loop with act := false } else k.loop.dropped
    pc := k.trap.vecAddr * 4, issue := 0, startAt := cycle + 4, status := .ready }

/-- DOUBLE TRAP (R351): the first trap's registers stay, the second goes to TRPC2 and TRCAUSE2. -/
def Ctx.doubleTrap (k : Ctx) (cause : Nat) : Ctx :=
  { k with trap := { k.trap with pc2 := k.pc, code2 := cause }, status := .halted }

/-- HALT WITHOUT HANDLER (R351). -/
def Ctx.haltTrap (k : Ctx) (cause : Nat) (addr : Word) (slot : Nat) : Ctx :=
  let r := k.recordTrap cause addr slot
  { r with trap := { r.trap with pc2 := 0, code2 := 0 }, status := .halted }

/-- Causes of consuming points, which unwind inside a region (R354). -/
def consumes (cause : Nat) : Bool := cause = 4 || cause = 5 || cause = 10

/-- A trap condition of the bundle of context x of core c (R347, R349, R351, R354). -/
def State.trapCtx (s : State) (c x cause : Nat) (addr : Word) (slot : Nat) : State :=
  let k := s.ctx c x
  let post (s : State) (code code2 : Nat) (dbl : Bool) := s.postEvent (dieOf c) 5 (haltRecord c x code code2 dbl)
  if k.trap.crit ∨ k.trap.hdepth = 15 ∧ ¬ (consumes cause ∧ k.regions ≠ []) then
    post (s.onCtx c x fun k => k.doubleTrap cause) k.trap.code cause true
  else if consumes cause ∧ k.regions ≠ [] then
    s.onCtx c x fun k => { k with status := .waiting (.unwinding cause addr slot k.issue) }
  else if k.trap.vecEn then s.onCtx c x fun k => k.enterTrap cause addr slot (s.core c).cycle
  else post (s.onCtx c x fun k => k.haltTrap cause addr slot) cause 0 false

/-- The trap of an operation of the bundle in focus: the bundle has no effect (R347). -/
def State.trap (s : State) (cause : Nat) (addr : Word) (slot : Nat) : State :=
  { s.trapCtx s.fc s.fx cause addr slot with mark := .traps }

/-- The illegal-instruction trap (cause 2). -/
def State.illegal (s : State) (slot : Nat) : State := s.trap 2 0 slot

/-- The bundle in focus cannot issue: its context waits (R160). -/
def State.wait (s : State) (w : Wait) : State :=
  { s.onCur (fun k => { k with status := .waiting w }) with mark := .waits }

/-- RETURN FROM A TRAP (R350): HDEPTH falls, the window closes, the loop save comes back at HDEPTH 0, and the bundle at
TRPC issues again, as a shadow when the trap struck a shadow. -/
def Ctx.trapReturn (k : Ctx) : Ctx :=
  let h := k.trap.hdepth - 1
  let k := k.noSticky
  { k with
    trap := { k.trap with hdepth := h, crit := false }
    loop := if h = 0 then k.trap.loopSave else k.loop
    pc := k.trap.pc
    issue := if k.trap.shadow then 0 else k.trap.issue
    target := if k.trap.shadow then some (k.trap.target * 4) else none }

/-- The writes an UNWIND makes once the context is settled (R355). `keep` leaves the trap registers as a halt wrote
them (R352). -/
def Ctx.unwind (k : Ctx) (cause : Nat) (addr : Word) (slot issue : Nat) (keep : Bool) (cycle : Nat) : Ctx :=
  match k.regions.getLast? with
  | none => k
  | some r =>
    let n := k.noSticky
    let t : TrapRegs :=
      if keep then { k.trap with unw := true }
      else { k.trap with pc := k.pc, code := cause, unw := true, addr, slot, issue, shadow := false, target := 0 }
    { n with
      trap := { t with hdepth := r.hdepth, crit := false }
      decl := false, declFirst := 0, declReq := 0
      regions := k.regions.dropLast
      loop := k.loop.dropped
      pc := r.handler, issue := 0, startAt := cycle + 1, status := .ready }

/-- Whether the stores of context x of core c with number `since` or above are settled, and its register writes done
(R355); an access whose landing was abandoned holds nothing back (R360). -/
def State.settled (s : State) (c x since : Nat) : Bool :=
  (s.ctx c x).pend.isEmpty &&
    !(s.net.any fun r => r.agent = .ctx c x && r.kind = .store && !r.pieces.isEmpty && since ≤ r.id) &&
    !(s.parked.any fun p => p.req.agent = .ctx c x && p.req.kind = .store && since ≤ p.req.id)

/-! ## Issue of one operation (R203, R208-R210, R250, R353) -/

/-- A source register with its B bit. -/
inductive Src
  | g (n : Nat) (b : Bool)
  | v (n : Nat) (b : Bool)
  | p (n : Nat) (b : Bool)
  | acc (t : Nat) (b : Bool)
  deriving DecidableEq, Repr

def State.tile (s : State) (t : Nat) : Tile := s.fcore.acc.get t {}

/-- Whether a source is full. -/
def Src.full (s : State) : Src → Bool
  | .g n _ => (s.g n).full
  | .v n _ => (s.v n).full
  | .p n _ => (s.p n).full
  | .acc t _ => (s.tile t).full

/-- Its B bit. -/
def Src.waits : Src → Bool
  | .g _ b => b | .v _ b => b | .p _ b => b | .acc _ b => b

/-- TRADDR of EARLYREAD (R346). -/
def Src.addr : Src → Word
  | .g n _ => BitVec.ofNat 64 n
  | .v n _ => BitVec.ofNat 64 (n + 64)
  | .p n _ => BitVec.ofNat 64 (n + 128)
  | .acc t _ => BitVec.ofNat 64 (t + 192)

/-- What an operation needs at issue: its slot and guard, its sources, its destinations, and the sources whose poison
it consumes. -/
structure Need where
  slot : Nat
  pred : Nat
  srcs : List Src
  dests : List Dest
  eats : List Src := []

/-- The poison bit of a source. -/
def Src.poison (s : State) : Src → Bool
  | .g n _ => (s.g n).poison
  | .v n _ => (s.v n).poison
  | _ => false

/-- TRADDR of a consumed poison (R346). -/
def Src.eatAddr : Src → Word
  | .v n _ => BitVec.ofNat 64 (n + 64)
  | x => x.addr

/-- The checks of issue, then the operation's body. -/
def State.issue (s : State) (n : Need) (body : State → State) : State :=
  if ¬ (s.p n.pred).full then s.wait .regs
  else if ¬ (s.p n.pred).val then s
  else match n.srcs.find? fun r => !r.full s && !r.waits with
    | some r => { s.trap 3 r.addr n.slot with mark := .early }
    | none =>
      if n.srcs.any (fun r => !r.full s) || n.dests.any s.old.pending then s.wait .regs
      else match n.eats.find? fun r => r.poison s with
        | some r => s.trap 4 r.eatAddr n.slot
        | none => body s

end Sys2Proof.Machine
end

