-- ==== Sys2Proof/Machine/Operands.lean ====
section
/-! DEFINITION. Operand forms: sources and values of the TRI, IMM, LAND and STORE formats (R204, R225, R226, R251), the
timeline selector (R265), and the operation shapes that read G registers and write one destination. -/

namespace Sys2Proof.Machine

/-- A 64-bit word of a signed value (R225). -/
def wd (x : Int) : Word := BitVec.ofInt 64 x

/-- A register value as a destination's bits. -/
def wide (w : Word) : Vec := w.setWidth 2048

/-- A result, the saturation events it counts. -/
abbrev Res := Word × Nat

/-- The value of source A. -/
def State.valA (s : State) (t : Tri) : Word := (s.g t.a).val

/-- The value of source B: a register, or the extension word in the B-imm kind (R226). -/
def State.valB (s : State) (t : Tri) : Word :=
  match t.ext with
  | some e => wd (sx (e : Nat) 32)
  | none => (s.g t.b).val

/-- The control value of EXT, INS and SATS: b, or the extension word as it stands (R230, R236). -/
def State.ctlB (s : State) (t : Tri) : Nat :=
  match t.ext with
  | some e => e
  | none => (s.g t.b).val.toNat

def srcA (t : Tri) : Src := .g t.a t.ba
def srcB (t : Tri) : Src := .g t.b t.bb

/-- The G sources of a TRI operation of the B-imm kind or without extension. -/
def srcsAB (t : Tri) : List Src :=
  match t.ext with
  | some _ => [srcA t]
  | none => [srcA t, srcB t]

/-- Whether any source is poisoned. -/
def State.anyPoison (s : State) (l : List Src) : Bool := l.any fun r => r.poison s

/-- A scalar operation: G sources, a result to Gd at latency L, poisoned when a source is and then counting nothing
(R227). -/
def State.scalar (s : State) (slot pred L d : Nat) (srcs : List Src) (f : State → Res) : State :=
  s.issue { slot, pred, srcs, dests := [s.dg d] } fun s =>
    let p := s.anyPoison srcs
    let r := f s
    s.result L (s.dg d) (wide r.1) p (if p then 0 else r.2)

/-- A scalar operation on a and b. -/
def State.scalar2 (s : State) (t : Tri) (L : Nat) (f : Word → Word → Res) : State :=
  s.scalar t.slot t.pred L t.d (srcsAB t) fun s => f (s.valA t) (s.valB t)

/-- A scalar operation on a. -/
def State.scalar1 (s : State) (t : Tri) (L : Nat) (f : Word → Res) : State :=
  s.scalar t.slot t.pred L t.d [srcA t] fun s => f (s.valA t)

/-- A scalar operation on a and the immediate. -/
def State.scalarI (s : State) (t : ImmF) (f : Word → Word → Res) : State :=
  s.scalar t.slot t.pred 1 t.d [.g t.a t.ba] fun s => f (s.g t.a).val (wd t.imm)

/-- The relation of a condition code (R232). -/
def condHolds (cc : Cond) (a b : Word) : Bool :=
  match cc with
  | .eq => a = b
  | .ne => a ≠ b
  | .lt => a.toInt < b.toInt
  | .ge => a.toInt ≥ b.toInt
  | .ltn => a.toNat < b.toNat
  | .gen => a.toNat ≥ b.toNat

/-- A bit as a destination's bits. -/
def bitVec (b : Bool) : Vec := if b then 1 else 0

/-- A predicate operation (R233). -/
def State.predOp (s : State) (t : Tri) (srcs : List Src) (f : Bool → Bool → Bool) : State :=
  s.issue { slot := t.slot, pred := t.pred, srcs, dests := [s.dp t.d] } fun s =>
    s.result 1 (s.dp t.d) (bitVec (f (s.p t.a).val (s.p t.b).val)) false 0

/-- An address operand (R251): the full 64-bit sum. -/
def State.addrOf (s : State) (a : Nat) (disp : Int) : Nat := ((s.g a).val + wd disp).toNat

/-- A stored G register pair or value. -/
def State.gval (s : State) (n : Nat) : Word := (s.g n).val

/-- The timeline selector's KIND and INDEX (R265). -/
def selKind (sel : Nat) : Nat := fld sel 0 4
def selIndex (sel : Nat) : Nat := fld sel 4 10

end Sys2Proof.Machine
end

