-- ==== Sys2Proof/Machine/Flags.lean ====
section
/-! DEFINITION. Flag computations: results that saturate with the SAT events they count (R100, R228, R236-R239), the
declined-store flag (R33, R348), the loss scale (R276, R277). -/

namespace Sys2Proof.Machine

/-- ABS (R228). -/
def absRes (a : Word) : Res :=
  let x := a.toInt
  let y : Int := if x < 0 then -x else x
  (wd (sat y 64), if y > 2 ^ 63 - 1 then 1 else 0)

/-- SATS (R236), with the clamped width. -/
def satsRes (a : Word) (w : Nat) (u : Bool) : Res :=
  let y := satTo w u a.toInt
  (wd y, if y ≠ a.toInt then 1 else 0)

/-- DIVF (R237). -/
def divfRes (a b : Word) : Res :=
  let x := a.toInt
  let y := b.toInt
  if y = 0 then (wd (if x > 0 then 2 ^ 63 - 1 else if x < 0 then -(2 ^ 63) else 0), 1)
  else
    let q := x.fdiv y
    (wd (sat q 64), if sat q 64 ≠ q then 1 else 0)

/-- REMF (R237). -/
def remfRes (a b : Word) : Res :=
  if b.toInt = 0 then (0, 1) else (wd (a.toInt.fmod b.toInt), 0)

/-- RCPN (R238): Gd, G(d+1), events. -/
def rcpnRes (a : Word) : Word × Word × Nat :=
  let u := a.toNat
  if u = 0 then (wd (2 ^ 63 - 1), 64, 1)
  else
    let k := clz u 64
    (BitVec.ofNat 64 (min (2 ^ 126 / (u * 2 ^ k)) (2 ^ 63 - 1)), BitVec.ofNat 64 k, 0)

/-- The largest m below 2^n that `ok` holds of, for a downward-closed `ok`. -/
def greatest (ok : Nat → Bool) : Nat → Nat → Nat
  | 0, m => m
  | n + 1, m => greatest ok n (if ok (m + 2 ^ n) then m + 2 ^ n else m)

/-- RSQN (R239). -/
def rsqnRes (a : Word) : Word × Word × Nat :=
  let v := a.toNat
  if v = 0 then (wd (2 ^ 63 - 1), 32, 1)
  else
    let k := clz v 64 - clz v 64 % 2
    let v' := v * 2 ^ k
    (BitVec.ofNat 64 (min (greatest (fun m => m * m * v' ≤ 2 ^ 188) 64 0) (2 ^ 63 - 1)), BitVec.ofNat 64 (k / 2), 0)

/-- A store of the context is declined (R33): the flag is set, with the address of the earliest in issue order. -/
def Ctx.declineStore (k : Ctx) (req addr : Nat) : Ctx :=
  if k.decl ∧ k.declReq ≤ req then k
  else { k with decl := true, declFirst := addr % 2 ^ 56, declReq := req }

/-- Consumes the declined-store flag at an operation of the bundle in focus (R33, R353): the access-declined trap, else
the rest. -/
def State.eatDecl (s : State) (slot : Nat) (go : State → State) : State :=
  if s.old.decl then s.trap 5 (BitVec.ofNat 64 s.old.declFirst) slot else go s

end Sys2Proof.Machine
end

