-- ==== Sys2Proof/Machine/Translate.lean ====
section
/-! DEFINITION. Addresses: the virtual layout and its windows (R13-R15), home die and serving MTU (R17), the page-table
walk through the TLB (R19-R23, R27), what a page forbids (R26, R444), parking and fault records (R28, R31). -/

namespace Sys2Proof.Machine

/-! ## Layout (R13, R17, R65) -/

/-- Where a virtual address leads for an agent. -/
inductive Spot
  | scratch (core off : Nat)
  | ring (off : Nat)
  | page
  | out
  deriving DecidableEq, Repr

/-- R13, R15: the scratchpad windows exist only for agents of a cluster. -/
def spot (ag : Agent) (va : Nat) : Spot :=
  if va < 2 ^ 47 then .page
  else if 0x00FD000000000000 ≤ va ∧ va < 0x00FD000000000000 + 2 ^ 31 then .ring (va - 0x00FD000000000000)
  else match ag.core? with
    | none => .out
    | some c =>
      if 0x00FE000000000000 ≤ va ∧ va < 0x00FE000000000000 + 2 ^ 25 then
        .scratch (c / 4 * 4 + fld va 23 2) (va % 2 ^ 23)
      else if 0x00FF000000000000 ≤ va ∧ va < 0x00FF000000000000 + 2 ^ 23 then .scratch c (va % 2 ^ 23)
      else .out

/-- The hash of R17. -/
def hashG (va : Nat) : Nat := fld va 21 26 * 0x8F4B2D67 % 2 ^ 32

/-- home(va). -/
def homeDie (va : Nat) : Nat := fld va 16 5 ^^^ fld (hashG va) 27 5

/-- The serving MTU of the home die. -/
def mtuOf (va : Nat) : Nat := fld (hashG va) 16 11 * 5 / 2 ^ 11

/-- slice(o) of R65. -/
def sliceOf (o : Nat) : Nat := fld o 12 5 ^^^ fld o 17 5

/-- sliceoff of R65: the byte within the slice. -/
def sliceOff (o : Nat) : Nat := fld o 17 14 * 2 ^ 12 + fld o 0 12

/-- The bank of a slice that holds an offset (R65). -/
def ringBank (o : Nat) : Nat := fld (sliceOff o) 6 6

/-- The bank of a scratchpad that holds an offset (R39). -/
def spadBank (o : Nat) : Nat := fld o 6 6

/-- The page number of a translated address. -/
def pageOf (va : Nat) : Nat := va / 2 ^ 16

/-! ## Page-table entries (R19-R22) -/

def lShift : Nat → Nat
  | 0 => 39 | 1 => 30 | 2 => 21 | _ => 16

/-- Index into the table of a level. -/
def lIndex (level va : Nat) : Nat :=
  match level with
  | 0 => fld va 39 8 | 1 => fld va 30 9 | 2 => fld va 21 9 | _ => fld va 16 5

def entV (e : Nat) : Bool := bit e 0
def entW (e : Nat) : Bool := bit e 1
def entX (e : Nat) : Bool := bit e 2
def entCen (e : Nat) : Bool := bit e 3
def entClass (e : Nat) : Nat := fld e 4 4
def entSfmt (e : Nat) : Nat := fld e 8 3
def entSrnd (e : Nat) : Nat := fld e 11 2
def entProv (e : Nat) : Bool := bit e 13
def entPsz (e : Nat) : Nat := fld e 14 2
/-- The physical address that FRAME or NEXTHI gives. -/
def entPa (e : Nat) : Nat := fld e 16 36 * 2 ^ 16
def entTarget (e : Nat) : Nat := fld e 48 4
/-- The next-level table (R21). -/
def entNext (e : Nat) : Nat := entPa e + fld e 8 6 * 2 ^ 10

/-- Size of a page as a power of two. -/
def pszBits : Nat → Nat
  | 0 => 16 | 1 => 21 | _ => 30

/-- 48 GiB, a die's device memory; 6,144 GiB, the greatest second tier (R18). -/
def dieBytes : Nat := 48 * 2 ^ 30
def secondMax : Nat := 6144 * 2 ^ 30

/-- Bytes of the second tier: 16 ports of the capacity the configuration image gives, none when it is disabled (R77). -/
def State.secondBytes (s : State) : Nat := if s.mgmt.secondOff then 0 else min (16 * Config.portBytes s.mgmt.image) secondMax

/-- The port that holds a second-tier offset, and the place in the port's range (R77). -/
def secondPlace (y : Nat) : Nat × Nat := (fld y 16 4, fld y 20 23 * 2 ^ 16 + fld y 0 16)

/-- The controller of a byte of a die's device memory (R71). -/
def ctlOf (x : Nat) : Nat := fld x 16 2

/-- Whether [pa, pa + n) is in range under R18. -/
def State.paOk (s : State) (pa n : Nat) : Bool :=
  if pa / 2 ^ 48 = 0 then fld pa 41 7 = 0 && pa % 2 ^ 36 + n ≤ dieBytes
  else pa / 2 ^ 48 = 1 && fld pa 43 5 = 0 && pa % 2 ^ 43 + n ≤ s.secondBytes

/-- A valid entry that R22 does not call malformed. R22 gives 'large frame is misaligned' a number for TARGET 0 only; a
TARGET 1 frame is held to its page size (DESIGN CHOICE, log entry 58). -/
def State.entOk (s : State) (level e va : Nat) : Bool :=
  if entPsz e = 3 then
    level < 3 && fld e 1 7 = 0 && entTarget e = 0 && s.paOk (entNext e) 256 && (level = 2 || entNext e % 4096 = 0)
  else
    (entPsz e = 0 && level = 3 || entPsz e = 1 && level = 2 || entPsz e = 2 && level = 1) &&
      entClass e < 6 && entSfmt e < 5 && entSrnd e < 3 && (entClass e ≠ 4 || entTarget e = 1) &&
      if entTarget e = 0 then
        fld e 41 7 = 0 &&
          match entPsz e with
          | 0 => fld e 36 5 = homeDie va && s.paOk (entPa e) (2 ^ 16)
          | 1 => fld e 36 5 = 0 && s.paOk (entPa e) (2 ^ 16)
          | _ => fld e 36 5 = 0 && fld e 16 20 % 512 = 0 && s.paOk (entPa e) (2 ^ 25)
      else s.paOk (entPa e) (2 ^ pszBits (entPsz e)) && entPa e % 2 ^ pszBits (entPsz e) = 0

/-- What a walk finds. -/
inductive Walk
  | leaf (level e : Nat)
  | stop (cause level e : Nat)
  deriving DecidableEq, Repr

/-- A cached entry (R27). -/
def State.cached (s : State) (asid level va : Nat) : Option Nat :=
  (((s.die (homeDie va)).tlb.get (mtuOf va) []).find? fun t =>
    t.asid = asid && t.level = level && t.tag = va / 2 ^ lShift level).map (·.entry)

/-- The walk from a table at `base`, by levels (R19-R22): cause 0 a miss, 3 a malformed or poisoned entry. -/
def State.walkFrom (s : State) (asid va : Nat) : Nat → Nat → Nat → Walk
  | 0, _, _ => .stop 3 3 0
  | n + 1, level, base =>
    let a := base + 8 * lIndex level va
    let hit := s.cached asid level va
    let e := hit.getD (s.nat a 8)
    if hit.isNone && s.poisoned a 8 then .stop 3 level e
    else if !entV e then .stop 0 level e
    else if !s.entOk level e va then .stop 3 level e
    else if entPsz e = 3 then s.walkFrom asid va n (level + 1) (entNext e)
    else .leaf level e

/-- The walk of a virtual address; none when the ASID is not registered (R16). -/
def State.walk (s : State) (asid va : Nat) : Option Walk :=
  ((s.spaces.find? fun p => p.1 = asid).map (·.2)).map fun a => s.walkFrom asid va 4 0 a.root

/-- The key a leaf maps an address to (R23). -/
def leafKey (e va : Nat) : Nat :=
  if entTarget e = 1 then secondBase + (entPa e % 2 ^ 43) + va % 2 ^ pszBits (entPsz e)
  else match entPsz e with
    | 0 => entPa e + va % 2 ^ 16
    | 1 => deviceKey (homeDie va) (entPa e % 2 ^ 36 + va % 2 ^ 16)
    | _ => deviceKey (homeDie va) (entPa e % 2 ^ 36 + fld va 21 9 * 2 ^ 16 + va % 2 ^ 16)

/-- The die that executes an access to an address (R17, R65, R117). -/
def homeOf (ag : Agent) (va : Nat) : Nat :=
  match spot ag va with
  | .scratch c _ => dieOf c
  | .ring o => sliceOf o
  | _ => homeDie va

/-- The entries a walk reads, level by level, for the TLB (R27). -/
def State.walkEntries (s : State) (asid va : Nat) : Nat → Nat → Nat → List TlbEntry
  | 0, _, _ => []
  | n + 1, level, base =>
    let a := base + 8 * lIndex level va
    let hit := s.cached asid level va
    let e := hit.getD (s.nat a 8)
    if hit.isNone && s.poisoned a 8 || !entV e || !s.entOk level e va then []
    else { asid, level, tag := va / 2 ^ lShift level, entry := e } ::
      (if entPsz e = 3 then s.walkEntries asid va n (level + 1) (entNext e) else [])

/-- Caches the entries of a walk at the serving MTU: 16 Ki entries, the oldest leaving first (R27, log entry 12). -/
def State.fillTlb (s : State) (asid va : Nat) : State :=
  match (s.spaces.find? fun p => p.1 = asid).map (·.2) with
  | none => s
  | some a =>
    let new := (s.walkEntries asid va 4 0 a.root).filter fun t => (s.cached asid t.level va).isNone
    if new.isEmpty then s
    else s.onDie (homeDie va) fun d =>
      let l := d.tlb.get (mtuOf va) [] ++ new
      { d with tlb := d.tlb.set (mtuOf va) (l.drop (l.length - 16384)) }

/-! ## What an access may do (R24, R26, R444) -/

/-- The element type of a store: raw bytes, VQ2 indices, integers (R24). -/
inductive ETy | raw | vq2 | int
  deriving DecidableEq, Repr

/-- An access as the MTU sees it: `need` is a class the access asks for (R110, R147). -/
structure Acc where
  agent : Agent
  kind : AccKind
  asid : Nat
  need : Option Nat := none
  deriving DecidableEq, Repr

def AccKind.writes : AccKind → Bool
  | .store => true | .atomic => true | .gridAdd => true | .put => true | .copyWrite => true | _ => false

def AccKind.code : AccKind → Nat
  | .load => 0 | .store => 1 | .atomic => 2 | .fetch => 3 | .gridAdd => 4 | .put => 5 | .get => 6 | .copyRead => 7
  | .copyWrite => 8

/-- Copy channels and helper cores (R26, R78). -/
def Agent.copyOrHelper : Agent → Bool
  | .loader _ => true | .storer _ => true | .engine _ (.ch _) => true | _ => false

/-- The cause a leaf gives an access to [va, va + n), first in the order of R444; migrating (6) comes last. -/
def Acc.cause (a : Acc) (e va n : Nat) (ty : ETy) (migrating : Bool) : Option Nat :=
  let cl := entClass e
  if (entTarget e = 1 ∨ cl = 4) ∧ !a.agent.copyOrHelper then some 4
  else if a.kind.writes ∧ !entW e then some 1
  else if a.kind = .fetch ∧ !entX e then some 2
  else if (a.kind = .put ∨ a.kind = .get) ∧ cl ≠ 3 then some 4
  else if a.kind = .gridAdd ∧ (cl ≠ 2 ∨ entSfmt e ≠ 0) then some 4
  else if a.kind = .atomic ∧ (cl = 2 ∨ cl = 4) then some 4
  else if (a.kind = .store ∨ a.kind = .copyWrite) ∧ cl = 2 ∧ (va % 8 ≠ 0 ∨ n % 8 ≠ 0) then some 4
  else if a.need.any (· ≠ cl) then some 4
  else if a.kind = .atomic ∧ entSfmt e ≠ 0 then some 5
  else if a.kind.writes ∧ ty = .raw ∧ 1 ≤ entSfmt e ∧ entSfmt e ≤ 3 then some 5
  else if a.kind.writes ∧ ty = .int ∧ entSfmt e = 4 then some 5
  else if a.kind.writes ∧ migrating then some 6
  else none

/-- Where an access of one page lands; `moving` is a scratchpad on its way to the relief core (R64). -/
inductive Place
  | at (key leaf : Nat)
  | declined
  | fault (cause level e : Nat)
  | behind
  | moving
  deriving DecidableEq, Repr

def State.isMigrating (s : State) (asid va : Nat) : Bool := (s.die (homeDie va)).migrating.contains (asid, pageOf va)

/-- Whether a page has a parked access (R28 rule 1), those of request `but` apart. -/
def State.pageParked (s : State) (asid va but : Nat) : Bool :=
  s.parked.any fun p => p.asid = asid && p.page = pageOf va && p.req.id ≠ but

/-- Resolves [va, va + n), all in one page or in one window, for an access; `id` is the request it belongs to, 0 for
none; `decl` the pages declined for it. -/
def State.place (s : State) (a : Acc) (va n : Nat) (ty : ETy) (id : Nat) (decl : List Nat) : Place :=
  match spot a.agent va with
  | .scratch c off =>
    if (s.core c).moving then .moving else if off + n ≤ 2 ^ 23 then .at (spadKey c off) 0 else .declined
  | .ring o => if o + n ≤ 2 ^ 31 then .at (ringBase + o) 0 else .declined
  | .out => .declined
  | .page =>
    if decl.contains (pageOf va) then .declined
    else match s.walk a.asid va with
      | none => .declined
      | some w =>
        if s.pageParked a.asid va id then .behind
        else match w with
          | .stop c l e => .fault c l e
          | .leaf l e =>
            match a.cause e va n ty (s.isMigrating a.asid va) with
            | some c => .fault c l e
            | none =>
              let k := leafKey e va
              if entTarget e = 1 ∧ s.cxlDown.contains (fld (k - secondBase) 16 4) then .declined else .at k e

/-- The unit in which accesses are made: a page of translated space, a line of a scratchpad or of the ring, whose banks
serve lines (R39, R65). -/
def grain (va : Nat) : Nat := if va < 2 ^ 47 then 2 ^ 16 else 2 ^ 6

/-- Cuts [va, va + n) where pages and lines end (R39, R116, R252). -/
def cutUnits (va n : Nat) : Nat → List (Nat × Nat)
  | 0 => []
  | f + 1 =>
    if n = 0 then []
    else
      let m := min n (grain va - va % grain va)
      (va, m) :: cutUnits (va + m) (n - m) f

/-- The cuts of a run of bytes. -/
def cuts (va n : Nat) : List (Nat × Nat) :=
  cutUnits va n ((if va + n ≤ 2 ^ 47 then n / 2 ^ 16 else n / 2 ^ 6) + 2)

/-! ## Parking and fault records (R28, R31) -/

/-- The model's number of an agent, for the AGENT field (log entry 5). -/
def Agent.number : Agent → Nat
  | .ctx c x => 8 * c + x
  | .loader c => 8 * c + 4
  | .storer c => 8 * c + 5
  | .dist d => 2 ^ 16 + d
  | .host p => 2 ^ 17 + p
  | .engine c (.ch n) => 2 ^ 18 + 16 * c + n
  | .engine c (.wp n) => 2 ^ 18 + 16 * c + 4 + n
  | .engine c .mx => 2 ^ 18 + 16 * c + 8
  | .engine c .grid => 2 ^ 18 + 16 * c + 9
  | .engine _ .coll => 2 ^ 17 + 2
  | .window => 2 ^ 17 + 3
  | .none => 2 ^ 17 + 4

/-- The fault record's words (R31). -/
def faultRecord (va asid cause kind home mtu park waiting repeats agent level e : Nat) : List Word :=
  [BitVec.ofNat 64 (va % 2 ^ 56),
   BitVec.ofNat 64 (asid + cause * 2 ^ 8 + kind * 2 ^ 12 + home * 2 ^ 16 + mtu * 2 ^ 21 + park % 4096 * 2 ^ 24 +
     min waiting 4095 * 2 ^ 36 + min repeats 255 * 2 ^ 48),
   BitVec.ofNat 64 (Config.agentId agent % 2 ^ 32 + level * 2 ^ 32),
   BitVec.ofNat 64 e]

def mtuIndex (va : Nat) : Nat := 5 * homeDie va + mtuOf va

/-- REPEAT of a page's chain of retries (R31). -/
def State.repeats (s : State) (asid va : Nat) : Nat :=
  (((s.die (homeDie va)).repeats.find? fun t => t.1 = asid && t.2.1 = pageOf va).map (·.2.2)).getD 0

/-- Whether the serving MTU has a free parking entry beside those of `w`, which wait behind the access (R27, R28 rule
4). -/
def State.canPark (s : State) (w : List Parked) (va : Nat) : Bool :=
  ((s.parked ++ w).filter fun p => p.mtu = mtuIndex va).length < 4096

/-- Parks an access on the page of `va`; without a parked access ahead of it the MTU raises a record, with the accesses of
`w` behind it (R28, R31). PARK is the number of accesses the MTU holds (log entry 48). -/
def State.park (s : State) (w : List Parked) (r : Req) (va cause level e : Nat) : State :=
  let ahead := s.pageParked r.asid va 0
  let here := (s.parked ++ w).filter fun p => p.mtu = mtuIndex va
  let behind := w.filter fun p => p.asid = r.asid && p.page = pageOf va
  let s1 := { s with parked := s.parked ++ [{ mtu := mtuIndex va, asid := r.asid, page := pageOf va, cause, req := r }] }
  if ahead then s1
  else s1.postEvent (homeDie va) 3
    (faultRecord va r.asid cause r.kind.code (homeDie va) (mtuOf va) here.length (1 + behind.length)
      (s.repeats r.asid va) r.agent.number level e)

/-- What keeps a part of an access from being served: its own fault, an access parked ahead of it, or a scratchpad on its
way to the relief core. -/
inductive Block
  | fault (va cause level e : Nat)
  | behind (va : Nat)
  | moving
  deriving DecidableEq, Repr

/-- The first part of an access that cannot be served now. -/
def State.blocked (s : State) (a : Acc) (parts : List (Nat × Nat × ETy)) (id : Nat) (decl : List Nat) : Option Block :=
  match parts with
  | [] => none
  | (va, n, ty) :: r =>
    match s.place a va n ty id decl with
    | .fault c l e => some (.fault va c l e)
    | .behind => some (.behind va)
    | .moving => some .moving
    | _ => s.blocked a r id decl

/-- The parts of a plain run of bytes. -/
def parts (va n : Nat) (ty : ETy) : List (Nat × Nat × ETy) := (cuts va n).map fun c => (c.1, c.2, ty)

/-- What a declined part reads as: poison, and bytes that are free values (R33, log entry 57). -/
def State.lost (s : State) (va n : Nat) : List (Byte × Bool) := (List.range n).map fun i => (Config.lostByte s.fresh (va + i), true)

/-- Reads bytes that nothing blocks. -/
def State.readParts (s : State) (a : Acc) (decl : List Nat) (ps : List (Nat × Nat)) : List (Byte × Bool) :=
  ps.flatMap fun (va, n) =>
    match s.place a va n .raw 0 decl with
    | .at k _ => (s.bytes k n).zipIdx.map fun (b, i) => (b, s.linePoison (k + i))
    | _ => s.lost va n

/-- The little-endian value of bytes read, and whether any is poisoned. -/
def gotNat (bs : List (Byte × Bool)) : Nat := leNat (bs.map (·.1))
def gotPoison (bs : List (Byte × Bool)) : Bool := bs.any (·.2)

end Sys2Proof.Machine
end

