-- ==== Sys2Proof/Machine/Access.lean ====
section
/-! DEFINITION. Accesses at their homes: reads, raw writes, elements through the store path or R97 (R24, R97), atomics
(R261), censuses (R98), causal numbering (R136-R142), and where each result goes (R33, R252-R261). -/

namespace Sys2Proof.Machine

/-! ## One write at its home -/

/-- A write to device memory marks its frame in the provisional map of the current window when PROV is 1, and the die
as untracked in that window when it is 0 (R25, R374). -/
def State.markProv (s : State) (k leaf : Nat) : State :=
  if leaf = 0 ∨ 2 ^ 48 ≤ k then s
  else
    let w := s.ck.cur
    s.onDie (k / 2 ^ 36 % 32) fun d =>
      if entProv leaf then
        (if d.prov.contains (w, k / 2 ^ 16) then d else { d with prov := d.prov ++ [(w, k / 2 ^ 16)] })
      else if d.untracked.contains w then d else { d with untracked := d.untracked ++ [w] }

/-- Whether a distributor core holds a reservation of one of `n` bytes at a key. -/
def Dist.reserves (c : Dist) (k n : Nat) : Bool :=
  match c.resv with
  | some (_, m, r) => k < r + m && r < k + n
  | none => false

/-- A store breaks the reservations of its bytes, whatever value it writes (R328). -/
def State.breakResv (s : State) (k n : Nat) : State :=
  let drop (c : Dist) : Dist := if c.reserves k n then { c with resv := none } else c
  if s.dies.any fun p => p.2.prim.reserves k n || p.2.relf.reserves k n then
    { s with dies := s.dies.map fun p => (p.1, { p.2 with prim := drop p.2.prim, relf := drop p.2.relf }) }
  else s

def State.homeWrite (s : State) (k leaf : Nat) (bs : List Byte) (poison : Bool) : State :=
  ((s.store k bs poison).markProv k leaf).breakResv k bs.length

/-- A nibble of a byte (R91): the other half stays. -/
def setNibble (old : Byte) (hi : Bool) (v : Nat) : Byte :=
  if hi then BitVec.ofNat 8 (old.toNat % 16 + v % 16 * 16) else BitVec.ofNat 8 (old.toNat / 16 * 16 + v % 16)

/-- An access at work: what it has done so far, and the state. -/
structure Done extends Prog where
  s : State

/-- The address of a linear offset of R94, out of range when it is negative. -/
def elemAddr (base : Nat) (lin : Int) (w : Nat) : Nat :=
  let a : Int := (base : Int) + (lin * w).fdiv 8
  if a < 0 then 2 ^ 56 else a.toNat

/-- Whether an i4 element takes the high nibble. -/
def elemHi (lin : Int) (w : Nat) : Bool := w = 4 && lin % 2 = 1

/-- The random word of R24 and R97 for an element at a byte address: bits [31:0], or [63:32] for a high nibble. -/
def elemRandom (key : Word) (step : BitVec 32) (va : Nat) (hi : Bool) : Nat :=
  let m := (mix key (BitVec.ofNat 64 va) step).toNat
  if hi then m / 2 ^ 32 else m % 2 ^ 32

/-- Redundant bits of a stored value (R98). -/
def rsb (v : Int) (w : Nat) (uns : Bool) : Nat := if uns then rsbU v.toNat w else rsbS v w

def minOpt (o : Option Nat) (n : Nat) : Option Nat := some (match o with | none => n | some m => min m n)

/-- Bits of SFMT codes 1-3 (R20). -/
def sfmtBits : Nat → Nat
  | 1 => 4 | 2 => 8 | _ => 16

/-- An integer element whole on one page with SFMT "as written", or untranslated (R97 step 2): the value written. -/
def formElem (val : Int) (w : Nat) (uns : Bool) (shift mode : Nat) (r : Nat) : Int × Nat :=
  let y := shiftdown val shift mode r 32
  let v := satTo w uns y
  (v, if v = y then 0 else 1)

/-- Writes an element of width w at a key. -/
def State.putElem (s : State) (k leaf w : Nat) (hi : Bool) (v : Int) (poison : Bool) : State :=
  if w = 4 then s.homeWrite k leaf [setNibble (s.byte k) hi (zx v 4)] poison
  else s.homeWrite k leaf (leBytes (w / 8) (zx v w)) poison

/-- Raw bytes of one run at the places of its parts: those of a declined part are dropped. -/
def Done.putAt (d : Done) (va : Nat) (bs : List Byte) (poison : Bool) (ps : List ((Nat × Nat) × Place)) : Done :=
  ps.foldl (fun d c =>
    match c.2 with
    | .at k leaf => { d with s := d.s.homeWrite k leaf ((bs.drop (c.1.1 - va)).take c.1.2) poison }
    | _ => { d with declined := d.declined ++ [c.1.1] }) d

/-- The places of a run's parts. -/
def State.placesOf (s : State) (a : Acc) (id : Nat) (decl : List Nat) (va n : Nat) (ty : ETy) : List ((Nat × Nat) × Place) :=
  (cuts va n).map fun c => (c, s.place a c.1 c.2 ty id decl)

/-- Raw bytes of one run, part by part. -/
def Done.raw (d : Done) (a : Acc) (id : Nat) (decl : List Nat) (va : Nat) (bs : List Byte) (poison : Bool) (ty : ETy) :
    Done :=
  d.putAt va bs poison (d.s.placesOf a id decl va bs.length ty)

/-- Reads one run: a declined part reads as free bytes, poisoned. `more` goes on with the run before it. -/
def Done.read (d : Done) (a : Acc) (id : Nat) (decl : List Nat) (va n : Nat) (more : Bool) : Done :=
  let bs := d.s.readParts a decl (cuts va n)
  let bad := (d.s.placesOf a id decl va n .raw).filterMap fun c => match c.2 with | .at _ _ => none | _ => some c.1.1
  { d with data := if more then d.data.dropLast ++ [d.data.getLastD [] ++ bs] else d.data ++ [bs]
           declined := d.declined ++ bad }

/-- Whether an element's bytes lie on two pages (R24, R97), or in two lines of a scratchpad or the ring (R39, R65). -/
def splitElem (va w : Nat) : Bool := va % grain va + w / 8 > grain va

/-- Whether a place counts for the census (R25, R98). -/
def Place.counts : Place → Bool
  | .at _ leaf => leaf = 0 || entCen leaf
  | _ => false

/-- Whether a part is written. -/
def Place.isAt : Place → Bool
  | .at _ _ => true
  | _ => false

/-- Where the store path puts the converted bytes of an element (R24, R97): the parts of its place at SFMT width, those on
the page at hand at `k`. -/
def State.convPlaces (s : State) (a : Acc) (id : Nat) (decl : List Nat) (va k leaf va2 n2 : Nat) (ty : ETy) :
    List ((Nat × Nat) × Place) :=
  (cuts va2 n2).map fun c =>
    (c, if pageOf c.1 = pageOf va then Place.at (k + c.1 - va) leaf else s.place a c.1 c.2 ty id decl)

/-- Whether the store path of a leaf converts elements to integers (R24). -/
def entConverts (leaf : Nat) : Bool := leaf ≠ 0 && 1 ≤ entSfmt leaf && entSfmt leaf ≤ 3

/-- The element type of a typed element. -/
def elemTy (vq : Bool) : ETy := if vq then .vq2 else .int

/-- Elements written at places: they count when every part is written, and for the census when every page counts and they
are not poisoned (R25, R98). -/
def Done.count (d : Done) (ps : List ((Nat × Nat) × Place)) (elems : List (Int × Nat × Bool × Bool)) (written sats : Nat) :
    Done :=
  if ps.all fun c => c.2.isAt then
    let cen := if ps.all fun c => c.2.counts then
        elems.foldl (fun m e => if e.2.2.2 then m else minOpt m (rsb e.1 e.2.1 e.2.2.1)) d.census else d.census
    { d with sat := d.sat + sats, written := d.written + written, census := cen }
  else d

/-- What R97 step 2 and R113 make of the elements of a period: each is shifted down and brought to the width of FMT, then
to its field; with the value in its field, the elements that saturation changed (log entry 21). -/
def packFields (va : Nat) (p : Pattern) (w : Nat) (uns : Bool) (shift mode : Nat) (key : Word) (step : BitVec 32)
    (elems : List (Int × Int × Bool)) : List Int × Nat :=
  let ys := (elems.zip p.fields).map fun q =>
    (shiftdown q.1.2.1 shift mode (elemRandom key step (va + q.2.1 / 8) false) 32, q.2)
  let vs := ys.map fun y => let v := satTo w uns y.1; if y.2.2.2 then sat v y.2.2.1 else satn v y.2.2.1
  (vs, ((vs.zip ys).filter fun q => q.1 ≠ q.2.1).length)

/-- One period of a packing pattern where nothing converts it (R97 step 2, R113): the elements count at the width of FMT
(R98). -/
def Done.packed (d : Done) (a : Acc) (id : Nat) (decl : List Nat) (key : Word) (step : BitVec 32) (va : Nat) (p : Pattern)
    (w : Nat) (uns : Bool) (shift mode : Nat) (elems : List (Int × Int × Bool)) : Done :=
  let f := packFields va p w uns shift mode key step elems
  let ps := d.s.placesOf a id decl va (p.period / 8) .raw
  (d.putAt va (leBytes (p.period / 8) (patPack p.fields f.1)) (elems.any (·.2.2)) ps).count ps
    ((f.1.zip elems).map fun q => (q.1, w, uns, q.2.2.2)) elems.length f.2

/-- One typed element (R24, R94, R97, R98). Where FMT and SFMT differ and the converted place lies on another page, the
SFMT and SRND of the page at the FMT-width place govern, and the CEN of the page where the bytes land (log entry 15). -/
def Done.elem (d : Done) (a : Acc) (id : Nat) (decl : List Nat) (key : Word) (step : BitVec 32) (base : Nat) (lin val : Int)
    (w : Nat) (uns vq : Bool) (shift mode : Nat) (poison : Bool) : Done :=
  let va := elemAddr base lin w
  let hi := elemHi lin w
  let n := max 1 (w / 8)
  let f := formElem val w uns shift mode (elemRandom key step va hi)
  let count (e : Done) (ps : List ((Nat × Nat) × Place)) (v : Int) (w sats : Nat) (uns : Bool) : Done :=
    e.count ps (if vq then [] else [(v, w, uns, poison)]) 1 sats
  if splitElem va w then
    let ps := d.s.placesOf a id decl va n .raw
    count (d.putAt va (leBytes n (zx f.1 w)) poison ps) ps f.1 w f.2 uns
  else match d.s.place a va n (elemTy vq) id decl with
    | .at k leaf =>
      if entConverts leaf then
        let ws := sfmtBits (entSfmt leaf)
        let va2 := elemAddr base lin ws
        let hi2 := elemHi lin ws
        let y := shiftdown val shift (entSrnd leaf) (elemRandom key step va2 hi2) 32
        let v := Machine.sat y ws
        let ps := d.s.convPlaces a id decl va k leaf va2 (max 1 (ws / 8)) (elemTy vq)
        let old := match ps with | (_, .at k2 _) :: _ => d.s.byte k2 | _ => 0
        let bs := if ws = 4 then [setNibble old hi2 (zx v 4)] else leBytes (ws / 8) (zx v ws)
        count (d.putAt va2 bs poison ps) ps v ws (if v = y then 0 else 1) false
      else if vq ∧ leaf ≠ 0 ∧ entSfmt leaf = 4 then
        { d with s := d.s.putElem k leaf w hi val poison, written := d.written + 1 }
      else count { d with s := d.s.putElem k leaf w hi f.1 poison } [((va, n), .at k leaf)] f.1 w f.2 uns
    | _ => { d with declined := d.declined ++ [va] }

/-- A grid add of 64 bits at its home (R152, R155): the poison of the place stays, and poisons the completion. -/
def Done.add (d : Done) (a : Acc) (id : Nat) (decl : List Nat) (va : Nat) (x : Int) : Done :=
  match d.s.place a va 8 .raw id decl with
  | .at k leaf =>
    let old := d.s.nat k 8
    let p := d.s.poisoned k 8
    { d with s := d.s.homeWrite k leaf (leBytes 8 (zx (old + x) 64)) p, data := d.data ++ [[(0, p)]], written := d.written + 1 }
  | _ => { d with declined := d.declined ++ [va] }

/-- The new value of an atomic on W bits (R261); none when a CAS fails. -/
def atomNew (op : AtomOp) (u : Bool) (W old x : Nat) (cas : Option Nat) : Option Nat :=
  match cas with
  | some c => if old = c % 2 ^ W then some x else none
  | none => some <|
    match op with
    | .add => (old + x) % 2 ^ W
    | .min => if (if u then old ≤ x else sx (old : Nat) W ≤ sx (x : Nat) W) then old else x
    | .max => if (if u then old ≥ x else sx (old : Nat) W ≥ sx (x : Nat) W) then old else x
    | .and => old &&& x
    | .or => old ||| x
    | .xor => old ^^^ x
    | .swap => x

/-- An atomic at its home: one step of home order (R123); misaligned it is declined (R46, R66, R261). -/
def Done.atomic (d : Done) (a : Acc) (id : Nat) (decl : List Nat) (va n : Nat) (op : AtomOp) (u : Bool) (x : Nat)
    (cas : Option Nat) : Done :=
  let no : Done := { d with data := d.data ++ [d.s.lost va n], declined := d.declined ++ [va] }
  if va % n ≠ 0 then no
  else match d.s.place a va n .int id decl with
    | .at k leaf =>
      let old := d.s.nat k n
      let p := d.s.poisoned k n
      let s1 := match atomNew op u (8 * n) old (x % 2 ^ (8 * n)) cas with
        | some v => d.s.homeWrite k leaf (leBytes n v) false
        | none => d.s
      { d with s := s1, data := d.data ++ [(leBytes n old).map fun b => (b, p)] }
    | _ => no

/-! ## Whole accesses -/

/-- The access of a request. -/
def Req.acc (r : Req) : Acc := { agent := r.agent, kind := r.kind, asid := r.asid, need := r.need }

/-- The parts of a piece, for the test whether it can be served. -/
def Piece.parts : Piece → List (Nat × Nat × ETy)
  | .read va n => Machine.parts va n .raw
  | .more va n => Machine.parts va n .raw
  | .add va _ => [(va, 8, .raw)]
  | .packed va p _ _ _ _ _ _ => Machine.parts va (p.period / 8) .raw
  | .raw va bs _ => Machine.parts va bs.length .raw
  | .elem base lin _ w _ vq _ _ _ =>
    let va := elemAddr base lin w
    let n := max 1 (w / 8)
    if splitElem va w then Machine.parts va n .raw else [(va, n, elemTy vq)]

/-- The parts of a piece with the pages that the store path writes beside the one it looks at (R97). -/
def State.pieceParts (s : State) (a : Acc) (id : Nat) (decl : List Nat) (p : Piece) : List (Nat × Nat × ETy) :=
  p.parts ++
    match p with
    | .elem base lin _ w _ vq _ _ _ =>
      let va := elemAddr base lin w
      if splitElem va w then []
      else match s.place a va (max 1 (w / 8)) (elemTy vq) id decl with
        | .at _ leaf =>
          if entConverts leaf then
            let ws := sfmtBits (entSfmt leaf)
            ((cuts (elemAddr base lin ws) (max 1 (ws / 8))).filter fun c => pageOf c.1 ≠ pageOf va).map fun c =>
              (c.1, c.2, elemTy vq)
          else []
        | _ => []
    | _ => []

/-- The address of a piece. -/
def Piece.va : Piece → Nat
  | .read va _ => va
  | .more va _ => va
  | .add va _ => va
  | .packed va _ _ _ _ _ _ _ => va
  | .raw va _ _ => va
  | .elem base lin _ w _ _ _ _ _ => elemAddr base lin w

def Piece.size : Piece → Nat
  | .read _ n => n
  | .more _ n => n
  | .add _ _ => 8
  | .packed _ p _ _ _ _ _ _ => p.period / 8
  | .raw _ bs _ => bs.length
  | .elem _ _ _ w _ _ _ _ _ => max 1 (w / 8)

/-- A piece cut at page boundaries (R116, R252): each part is executed on its own. -/
def Piece.cut : Piece → List Piece
  | .read va n =>
    match cuts va n with
    | [] => [.read va 0]
    | c :: r => .read c.1 c.2 :: r.map fun c => .more c.1 c.2
  | .more va n => (cuts va n).map fun c => .more c.1 c.2
  | .raw va bs p => (cuts va bs.length).map fun c => .raw c.1 ((bs.drop (c.1 - va)).take c.2) p
  | p => [p]

/-- The leaf that maps an address for an access, if any. -/
def State.leafOn (s : State) (a : Acc) (va : Nat) : Option Nat :=
  if spot a.agent va = .page then
    match s.walk a.asid va with
    | some (.leaf _ e) => some e
    | _ => none
  else none

/-- A piece as it is executed: a period of a pattern that lies on one page with SFMT other than "as written" goes to the
store path element by element, each at its linear place (R97 step 1, log entry 21); others are cut where pages and lines
end. -/
def State.cutPiece (s : State) (r : Req) : Piece → List Piece
  | .packed va p base w uns shift mode elems =>
    if !splitElem va p.period && ((s.leafOn r.acc va).any fun e => entSfmt e ≠ 0) then
      elems.map fun e => .elem base e.1 e.2.1 w uns false shift mode e.2.2
    else [.packed va p base w uns shift mode elems]
  | p => p.cut

/-- Executes one piece at its home. -/
def Done.piece (d : Done) (r : Req) : Piece → Done
  | .read va n => d.read r.acc r.id r.decl va n false
  | .more va n => d.read r.acc r.id r.decl va n true
  | .add va x => d.add r.acc r.id r.decl va x
  | .packed va p _ w uns shift mode elems => d.packed r.acc r.id r.decl r.key r.rstep va p w uns shift mode elems
  | .raw va bs poison => d.raw r.acc r.id r.decl va bs poison .raw
  | .elem base lin val w uns vq shift mode poison =>
    d.elem r.acc r.id r.decl r.key r.rstep base lin val w uns vq shift mode poison

/-- Executes pieces in order up to the first that is blocked (R116, R122): what is done, the pieces left, the block. -/
def Done.run (r : Req) : List Piece → Done → Done × List Piece × Option Block
  | [], d => (d, [], none)
  | p :: ps, d =>
    match d.s.blocked r.acc (d.s.pieceParts r.acc r.id r.decl p) r.id r.decl with
    | none => Done.run r ps (d.piece r p)
    | some b => (d, p :: ps, some b)

/-- Whether a request is a misaligned atomic: it is declined before any page is looked at. -/
def Req.misaligned (r : Req) : Bool :=
  match r.atom with
  | some (_, n, _, _, _) => (r.pieces.head?.map Piece.va).getD 0 % n ≠ 0
  | none => false

/-- Executes a request as far as it goes. Parts between which nothing blocks are executed in one transition (log entry
34). -/
def State.perform (s : State) (r : Req) : Done × List Piece × Option Block :=
  match r.atom, r.pieces with
  | some (op, n, u, x, cas), p :: ps =>
    match if r.misaligned then none else s.blocked r.acc [(p.va, n, .int)] r.id r.decl with
    | none => (({ r.prog with s } : Done).atomic r.acc r.id r.decl p.va n op u x cas, [], none)
    | some b => (({ r.prog with s } : Done), p :: ps, some b)
  | _, ps => Done.run r (ps.flatMap (s.cutPiece r)) { r.prog with s }

/-- What blocks the next part of a request. -/
def State.blocks (s : State) (r : Req) : Option Block :=
  match r.atom, r.pieces with
  | some (_, n, _, _, _), p :: _ => if r.misaligned then none else s.blocked r.acc [(p.va, n, .int)] r.id r.decl
  | _, ps =>
    match ps.flatMap (s.cutPiece r) with
    | [] => none
    | p :: _ => s.blocked r.acc (s.pieceParts r.acc r.id r.decl p) r.id r.decl

/-! ## Causal numbering (R136-R142) -/

/-- The next number of a stream: 0 is skipped (R138). -/
def nextSeq (n : Nat) : Nat := if n + 1 ≥ 2 ^ 32 then 1 else n + 1

/-- a ≥ b between sequence numbers (R138). -/
def seqGe (a b : Nat) : Bool := (a + 2 ^ 32 - b % 2 ^ 32) % 2 ^ 32 < 2 ^ 31

/-- APPLIED advances over every executed number (R141). -/
def advance (applied : Nat) (execd : List Nat) : Nat → Nat
  | 0 => applied
  | f + 1 => if execd.contains (nextSeq applied) then advance (nextSeq applied) execd f else applied

/-- A tracked write numbered `seq` of stream src→home is executed. -/
def State.applied (s : State) (home src seq : Nat) : State :=
  s.onDie home fun d =>
    let e := (d.execd ++ [(src, seq)])
    let mine := (e.filter fun p => p.1 = src).map (·.2)
    let n := advance (d.applied.get src 0) mine mine.length
    { d with applied := d.applied.set src n
             execd := e.filter fun p => ¬ (p.1 = src ∧ seqGe n p.2 ∧ n ≠ 0) }

/-- Takes the next number of stream src→home. -/
def State.nextSent (s : State) (src home : Nat) : Nat × State :=
  let n := nextSeq ((s.die src).sent.get home 0)
  (n, s.onDie src fun d => { d with sent := d.sent.set home n })

/-- A tracked write that is sent and executed in one step (R136). -/
def State.tracked (s : State) (src home : Nat) : State :=
  let (n, s1) := s.nextSent src home
  s1.applied home src n

/-- Whether an address is tracked (R136): the ring and translated space. -/
def trackedAddr (ag : Agent) (va : Nat) : Bool :=
  match spot ag va with | .page => true | .ring _ => true | _ => false

/-- The home die of each part of a request's pieces that is tracked. -/
def homesOf (ag : Agent) (pieces : List Piece) : List Nat :=
  pieces.flatMap fun p =>
    (cuts p.va p.size).filterMap fun c => if trackedAddr ag c.1 then some (homeOf ag c.1) else none

/-- The past-table entry that still counts: 0 once it is acknowledged (R137). -/
def State.pastOf (s : State) (k : Ctx) (src home : Nat) : Nat :=
  let n := k.past.get home 0
  if n ≠ 0 ∧ seqGe ((s.die src).acked.get home 0) n then 0 else n

/-- The causal flush over every home but those listed (R140 rule 3). -/
def State.flushed (s : State) (k : Ctx) (src : Nat) (but : List Nat) : Bool :=
  k.past.all fun p => but.contains p.1 || s.pastOf k src p.1 = 0

/-! ## Where results go -/

/-- Sign or zero extension, vector bytes, lanes: the result of a load from its data (R252, R256, R258). -/
def convert (c : Conv) (data : List (List (Byte × Bool))) : Vec × Nat :=
  let bs := data.flatten.map (·.1)
  match c with
  | .sext bits => (wide (wd (sx (leNat bs : Nat) bits)), 0)
  | .zext bits => (BitVec.ofNat 2048 (leNat bs % 2 ^ bits), 0)
  | .vec => (BitVec.ofNat 2048 (leNat bs), 0)
  | .lanes lw fmt idx nibs =>
    let bits := 8 * 2 ^ lw
    let vals := (idx.zip (nibs.zip data)).map fun (m, hi, e) =>
      let raw := gotNat e
      let x := fmtRead fmt (if fmt = 0 then (if hi then raw / 16 else raw % 16) else raw)
      (m, x)
    (BitVec.ofNat 2048 (vals.foldl (fun acc p => acc + zx (sat p.2 bits) bits * 2 ^ (p.1 * bits)) 0),
     (vals.filter fun p => sat p.2 bits ≠ p.2).length)

/-! ## Descriptors (R93-R96, R98, R99) -/

def dfld (d : BitVec 1024) (lo n : Nat) : Nat := fld d.toNat lo n
def dBase (d : BitVec 1024) : Nat := dfld d 0 56
def dFmt (d : BitVec 1024) : Nat := dfld d 56 4
def dNdim (d : BitVec 1024) : Nat := dfld d 60 3
def dC (d : BitVec 1024) : Nat := dfld d 72 6
def dCv (d : BitVec 1024) : Bool := dfld d 78 1 = 1
def dStrict (d : BitVec 1024) : Bool := dfld d 79 1 = 1
def dLast (d : BitVec 1024) : Nat := dfld d 80 6
def dHr (d : BitVec 1024) : Nat := dfld d 86 4
def dRnd (d : BitVec 1024) : Nat := dfld d 90 2
def dCbsel (d : BitVec 1024) : Nat := dfld d 92 1
def dExt (d : BitVec 1024) (j : Nat) : Nat := dfld d (128 + 24 * j) 24
def dStr (d : BitVec 1024) (j : Nat) : Int := sx (dfld d (320 + 32 * j) 32 : Nat) 32
def dSide (d : BitVec 1024) : Nat := dfld d 576 56

/-- Bits a descriptor keeps; the rest are reserved and read 0 (R93). -/
def dKeep (d : BitVec 1024) : BitVec 1024 :=
  BitVec.ofNat 1024 (d.toNat % 2 ^ 63 + fld d.toNat 64 29 * 2 ^ 64 + fld d.toNat 128 192 * 2 ^ 128 +
    fld d.toNat 320 256 * 2 ^ 320 + fld d.toNat 576 56 * 2 ^ 576)

/-- Sets bits [lo + n - 1 : lo]. -/
def dSet (d : BitVec 1024) (lo n v : Nat) : BitVec 1024 :=
  BitVec.ofNat 1024 (d.toNat - fld d.toNat lo n * 2 ^ lo + v % 2 ^ n * 2 ^ lo)

/-- The product of the extents of the dimensions in use (R94). -/
def dCount (d : BitVec 1024) : Nat := ((List.range (dNdim d + 1)).map (dExt d)).prod

/-- Malformed under R95. -/
def dBad (d : BitVec 1024) (cbV : Bool) : Bool :=
  dFmt d > 9 || dRnd d = 3 || (List.range (dNdim d + 1)).any (fun j => dExt d j = 0) ||
    (dFmt d = 9 && dExt d 0 % 4 ≠ 0) || (dFmt d = 9 && dCbsel d = 1 && !cbV)

/-- The linear offset of element `j` (R94, R257): dimension 0 varies fastest. -/
def linFrom (d : BitVec 1024) : List Nat → Nat → Int
  | [], _ => 0
  | i :: r, j => (j % max 1 (dExt d i) : Nat) * dStr d i + linFrom d r (j / max 1 (dExt d i))

def dLin (d : BitVec 1024) (j : Nat) : Int := linFrom d (List.range (dNdim d + 1)) j

/-- The index of element `j` in dimension 0, and the linear index of its block byte (R109). -/
def blockOf (d : BitVec 1024) (j : Nat) : Nat :=
  let e0 := max 1 (dExt d 0)
  (j % e0) / 4 + e0 / 4 * (j / e0)

/-- The census-mode shift (R96). -/
def censusShift (d : BitVec 1024) : Nat :=
  if dCv d then min (max ((dLast d : Int) + dHr d - dC d) 0).toNat 63 else dLast d

/-- The update of a descriptor-bound write and, when the clamp changes E, the events that counts (R98). -/
def dUpdate (d : BitVec 1024) (es : Int) (shift : Nat) (census : Option Nat) (written : Nat) : BitVec 1024 × Option Nat :=
  let e := es + shift
  let c := min (max e (-128)) 127
  let d1 := dSet (dSet d 64 8 (zx c 8)) 80 6 shift
  let d2 := match census with
    | some m => dSet (dSet d1 72 6 (min 63 m)) 78 1 1
    | none => dSet d1 78 1 0
  (d2, if c = e then none else some written)

/-- Counts the events of an E clamp: SAT is set whatever their number (R98). -/
def Ctx.clamped (k : Ctx) : Option Nat → Ctx
  | none => k
  | some n => { k.count n with sat := true }

/-- Whether a descriptor still waits for a descriptor-bound write (R99). -/
def Ctx.descBusy (k : Ctx) (dn : Nat) : Bool := k.descPend.any fun p => p.1 = dn

/-! ## Finishing an access -/

/-- The flag of a declined store of a context (R33). -/
def State.storeDeclined (s : State) (ag : Agent) (id : Nat) (declined : List Nat) : State :=
  match declined, ag with
  | a :: _, .ctx c x => s.onCtx c x fun k => k.declineStore id a
  | _, _ => s

/-! ## Barriers (R171, R172) -/

def Barrier.member (b : Barrier) (core : Nat) : Bool := b.mask.getLsbD core
def Barrier.arrived (b : Barrier) (core : Nat) : Nat := b.arr.get core 0

/-- The members of a barrier. -/
def Barrier.members (b : Barrier) : List Nat := (List.range 640).filter b.member

/-- BARRIER_GENERATION_COMPLETE: when every member has arrived for the generation and the release of each of its arrivals
is through, GEN advances and one arrival of each is consumed (R131, R171). -/
def Barrier.complete (b : Barrier) : Barrier :=
  if b.mask ≠ 0 ∧ (b.members.all fun c => 0 < b.arrived c && !b.flying.contains (c, b.gen)) then
    { b with gen := (b.gen + 1) % 2 ^ 64, arr := b.arr.map fun p => (p.1, p.2 - 1) }
  else b

/-- The release of an arrival for a generation is through (R131, R173); with it the next generation, too, may be
complete. -/
def State.barArrive (s : State) (core b gen : Nat) : State :=
  let bar := s.barrier b
  let bar' := { bar with flying := bar.flying.erase (core, gen) }
  { s with barriers := s.barriers.set b bar'.complete.complete }

/-- Whether any byte an access read is poisoned. -/
def Prog.poisoned (p : Prog) : Bool := p.data.any gotPoison

/-- The result of an executed access on its way (R62, R98, R100). -/
def Done.finish (d : Done) (r : Req) : State :=
  match r.ret with
  | .reg c x conv =>
    let v := convert conv d.data
    { d.s with replies := d.s.replies ++
        [{ id := r.id, core := c, x, val := v.1, poison := d.poisoned, sat := v.2 }] }
  | .desc c x dn shift es _ =>
    let s1 := d.s.storeDeclined r.agent r.id d.declined
    s1.onCtx c x fun k =>
      let u := dUpdate (k.dAt dn) es shift d.census d.written
      let k1 := { k with d := k.d.set dn u.1, descPend := k.descPend.filter fun p => p ≠ (dn, r.id) }
      (k1.count d.sat).clamped u.2
  | .args c x task =>
    let v := convert .vec d.data
    d.s.onCtx c x fun k =>
      if k.argWait && (k.task.any fun t => t.order = task) then
        { k.put (.v 0) v.1 d.poisoned with argWait := false } else k
  | .stage c n => d.s.onCore c fun k => { k with stage := (k.stage + n) % 2 ^ 64 }
  | .post die words => d.s.postEvent die 6 words
  | .bar c b g => d.s.barArrive c b g
  | .own tag => { d.s with results := d.s.results ++ [{ agent := r.agent, tag, prog := d.toProg, decl := r.decl }] }
  | .none =>
    let s1 := if r.kind = .store then d.s.storeDeclined r.agent r.id d.declined else d.s
    match r.agent with
    | .ctx c x => s1.onCtx c x fun k => k.count d.sat
    | .window =>
      { s1 with puts := s1.puts.map fun p => if p.id = r.id then { p with done := true, bad := !d.declined.isEmpty } else p }
    | _ => s1

/-- An access all of whose parts are executed: its result, its writes on their streams (R137, R141), the entries its walks
cache (R27). -/
def Done.complete (d : Done) (r : Req) : State :=
  let s2 := r.homes.foldl (fun s h => if h.2 = 0 then s else s.applied h.1 r.src h.2) (d.finish r)
  r.pieces.foldl (fun s p => if spot r.agent p.va = .page then s.fillTlb r.asid p.va else s) s2

/-- Serves a request at its home as far as it goes: complete, parked on the first page that blocks it (R28), or waiting at
an MTU whose parking entries are full or at a bank whose scratchpad moves (R28 rule 4, R64). `w` waits behind it. -/
def State.serveWith (s : State) (w : List Parked) (r : Req) : State :=
  match ({ s with net := s.net.filter fun q => q.id ≠ r.id } : State).perform r with
  | (d, _, none) => d.complete r
  | (d, ps, some b) =>
    let q : Req := { r with pieces := ps, prog := d.toProg, stage := .home }
    let hold : State := { d.s with net := d.s.net ++ [q] }
    match b with
    | .fault va c l e => if d.s.canPark w va then d.s.park w q va c l e else hold
    | .behind va => if d.s.canPark w va then d.s.park w q va 0 0 0 else hold
    | .moving => hold

def State.serve (s : State) (r : Req) : State := s.serveWith [] r

/-! ## Answers to fault records (R32) -/

/-- Sets or removes REPEAT of a page. -/
def State.setRepeats (s : State) (asid va : Nat) (n : Option Nat) : State :=
  s.onDie (homeDie va) fun d =>
    let l := d.repeats.filter fun t => ¬ (t.1 = asid ∧ t.2.1 = pageOf va)
    { d with repeats := match n with | some n => l ++ [(asid, pageOf va, min n 255)] | none => l }

/-- The accesses parked on a page, in parking order. -/
def State.parkedOn (s : State) (asid page : Nat) : List Parked := s.parked.filter fun p => p.asid = asid && p.page = page

/-- Declines the accesses parked on a page in order: each goes on without the page. -/
def State.declineAll (page : Nat) : List Parked → State → State
  | [], s => s
  | p :: rest, s => State.declineAll page rest (s.serveWith rest { p.req with decl := page :: p.req.decl })

/-- Replays the accesses parked on a page in order; one that faults again on the page parks once more ahead of those that
follow. -/
def State.replayAll (asid page : Nat) : List Parked → State → State
  | [], s => s
  | p :: rest, s =>
    let s1 := s.serveWith rest p.req
    if s1.parked.any fun q => q.asid = asid && q.page = page then { s1 with parked := s1.parked ++ rest }
    else State.replayAll asid page rest s1

/-- PARKED REPLAY (R32): a retry replays the accesses parked on the page, a decline declines them. A page with none is
ignored. -/
def State.answerPage (s : State) (asid va : Nat) (decline : Bool) : State :=
  let mine := s.parkedOn asid (pageOf va)
  if mine.isEmpty then s
  else
    let s1 := { s with parked := s.parked.filter fun p => ¬ (p.asid = asid ∧ p.page = pageOf va) }
    if decline then (State.declineAll (pageOf va) mine s1).setRepeats asid va none
    else
      let s2 := State.replayAll asid (pageOf va) mine (s1.setRepeats asid va (some (s.repeats asid va + 1)))
      if s2.pageParked asid va 0 then s2 else s2.setRepeats asid va none

/-- An answer in the answer register of the page's MTU (R27, R29), which acts on it. -/
def State.answer (s : State) (asid va : Nat) (decline : Bool) : State :=
  (s.onDie (homeDie va) fun d => { d with answers := d.answers.set (mtuOf va) (asid, pageOf va, decline) }).answerPage
    asid va decline

end Sys2Proof.Machine
end

