-- ==== Sys2Proof/Machine/Net.lean ====
section
/-! DEFINITION. Accesses in flight: issue with the causal header (R136-R140), arrival at the home and its hold buffers
(R141, R142), service by bank units and MTUs (R28, R45, R66), the way back to the core (R62, R63, R214, R215). -/

namespace Sys2Proof.Machine

abbrev Out := Host.Outcome State Fault Refusal

/-! ## Locations of a request -/

/-- The unit that serves a request: 0 a scratchpad bank, 1 a ring bank, 2 an MTU, 3 none (R14). -/
def Req.unit (r : Req) : Nat :=
  let l := r.pieces.flatMap fun p => (cuts p.va p.size).map fun c => spot r.agent c.1
  if l.contains .page then 2
  else if l.any fun x => match x with | .ring _ => true | _ => false then 1
  else if l.any fun x => match x with | .scratch _ _ => true | _ => false then 0
  else 3

/-- A bank of a logical core's scratchpad, or of a ring slice (R39, R65). -/
inductive Bank
  | spad (core bank : Nat)
  | ring (slice bank : Nat)
  deriving DecidableEq, Repr

/-- The bank that holds the next line of an access. -/
def bankOf (ag : Agent) (pieces : List Piece) : Option Bank :=
  pieces.head?.bind fun p =>
    match spot ag p.va with
    | .scratch c o => some (.spad c (spadBank o))
    | .ring o => some (.ring (sliceOf o) (ringBank o))
    | _ => none

/-- The clock cycle in which a request reaches its bank: that of the core whose scratchpad it is. -/
def State.cycleAt (s : State) (ag : Agent) (pieces : List Piece) : Nat :=
  match bankOf ag pieces with
  | some (.spad c _) => 1 + (s.core c).cycle + (s.core c).frzcnt
  | _ => 0

/-- The order of requesters at a bank (R40): contexts in the order they issued, loader, storer, engines; the other cores
of the cluster come last. A ring bank takes requests as they arrive (R66). -/
def Req.rank (r : Req) : Nat :=
  match bankOf r.agent r.pieces, r.agent.core? with
  | some (.spad c _), some k =>
    if k ≠ c then 16 + k
    else match r.agent with
      | .loader _ => 1 | .storer _ => 2 | .engine _ (.ch n) => 3 + n | .engine _ .grid => 7 | .engine _ (.wp n) => 8 + n
      | _ => 0
  | _, _ => 0

/-- Whether a request is served before another at their scratchpad: what came in an earlier cycle first, then by requester
(R40); accesses held while the scratchpad moved keep the order in which they came (R64). -/
def Req.precedes (q r : Req) : Bool := q.cyc < r.cyc || (q.cyc = r.cyc && q.cyc ≠ 0 && q.rank < r.rank)

/-- The array that serves a bank: requests at one scratchpad are served in one order (R45), and so are those at a bank of
the ring (R66). -/
def Bank.array : Bank → Bank
  | .spad c _ => .spad c 0
  | b => b

/-- The location of an address; own and cluster windows name one location (R45). -/
def locOf (ag : Agent) (va : Nat) : Nat :=
  match spot ag va with
  | .scratch c o => spadKey c o
  | .ring o => ringBase + o
  | .page => va
  | .out => 2 ^ 90

/-- Where a piece touches memory: its bytes, and beside them the place where the store path of its leaf puts a converted
element (R97). -/
def Piece.spots (leaf : Option Nat) : Piece → List (Nat × Nat)
  | .elem base lin _ w _ _ _ _ _ =>
    (elemAddr base lin w, max 1 (w / 8)) ::
      match leaf with
      | some e => if entConverts e then let ws := sfmtBits (entSfmt e); [(elemAddr base lin ws, max 1 (ws / 8))] else []
      | none => []
  | p => [(p.va, p.size)]

/-- The locations that a request still has to touch: first byte and length. -/
def State.touches (s : State) (r : Req) : List (Nat × Nat) :=
  (r.pieces.flatMap (s.cutPiece r)).flatMap fun p =>
    let leaf := match p with | .elem .. => s.leafOn r.acc p.va | _ => none
    (p.spots leaf).map fun t => (locOf r.agent t.1, t.2)

/-- Whether two runs of bytes share one. -/
def meets (x y : Nat × Nat) : Bool := x.1 < y.1 + y.2 && y.1 < x.1 + x.2

/-- Whether two requests touch a common location. -/
def State.overlaps (s : State) (q r : Req) : Bool := (s.touches q).any fun x => (s.touches r).any (meets x)

/-- Pages of a request. -/
def Req.pages (r : Req) : List Nat := r.pieces.flatMap fun p => (cuts p.va p.size).map fun c => pageOf c.1

/-! ## Sending (R138, R140) -/

/-- Writes of a stream not yet acknowledged: the skipped number 0 counts for none (R138). -/
def outstanding (sent acked : Nat) : Nat := if acked ≤ sent then sent - acked else sent + (2 ^ 32 - 1) - acked

/-- Whether the streams of a die have room for a write to each of `homes` (R138). -/
def State.streamOpen (s : State) (src : Nat) (homes : List Nat) : Bool :=
  homes.eraseDups.all fun h =>
    outstanding ((s.die src).sent.get h 0) ((s.die src).acked.get h 0) + homes.count h ≤ 2 ^ 20

/-- The pairs of R139 for the homes of a read or a release, from the past table. -/
def State.pairs (s : State) (k : Ctx) (src : Nat) (homes : List Nat) : List (Nat × Nat × Nat) :=
  homes.eraseDups.filterMap fun h => let n := s.pastOf k src h; if n = 0 then none else some (h, src, n)

/-- Whether every earlier load and atomic of the context has landed (R129, R140 rule 3). -/
def Ctx.landedBefore (k : Ctx) (id : Nat) : Bool := !(k.pend.any fun p => p.landed && !p.token && p.req < id)

/-- Replaces a request in the net, which leaves its place there. -/
def State.netMove (s : State) (r : Req) : State := { s with net := (s.net.filter fun q => q.id ≠ r.id) ++ [r] }

/-- Replaces a request in the net in its place. -/
def State.netSet (s : State) (r : Req) : State := { s with net := s.net.map fun q => if q.id = r.id then r else q }

/-- The number of each write of a list of homes, taken in order. -/
def State.numbered (s : State) (src : Nat) (homes : List Nat) : State × List (Nat × Nat) :=
  homes.foldl (fun (acc : State × List (Nat × Nat)) h =>
    let (n, s1) := acc.1.nextSent src h
    (s1, acc.2 ++ [(h, n)])) (s, [])

/-- Sends a request of a context: numbers its tracked writes, notes them in the past table, and sets its pairs: none for a
relaxed write, none when there would be more than four (R140). -/
def State.sendReq (s : State) (r : Req) (c x : Nat) : State :=
  let hs := r.homes.map (·.1)
  let ds := if r.kind = .store ∧ !r.rel then [] else s.pairs (s.ctx c x) r.src hs
  let ds := if ds.length > 4 then [] else ds
  if r.kind = .load then s.netMove { r with stage := .sent, deps := ds }
  else
    let out := hs.foldl (fun (acc : State × List (Nat × Nat)) h =>
      let (n, s1) := acc.1.nextSent r.src h
      (s1.onCtx c x fun k => { k with past := k.past.set h n }, acc.2 ++ [(h, n)])) (s, [])
    out.1.netMove { r with stage := .sent, homes := out.2, deps := ds }

/-- Whether every untracked access of an agent issued before `id` has been executed: a release follows them too (R124). -/
def State.spadDone (s : State) (ag : Agent) (id : Nat) : Bool :=
  !(s.net.any fun q => q.id < id && q.agent = ag && q.homes.isEmpty && !q.ret.owned)

/-- Whether an earlier request of the agent still waits at its source: a release follows it whatever it is (R124), any
other request when they touch a common location (R122). -/
def State.sourceBusy (s : State) (r : Req) : Bool :=
  s.net.any fun q => q.id < r.id && q.agent = r.agent && q.stage = .flush && (r.rel || s.overlaps q r)

/-- The causal flush of a release to homes `hs` (R140 rule 3). -/
def State.mayRelease (s : State) (r : Req) (c x : Nat) (hs : List Nat) : Bool :=
  (s.ctx c x).landedBefore r.id && s.flushed (s.ctx c x) r.src hs && s.spadDone r.agent r.id

/-- Whether a request that waits at its source may be sent: after what it follows (R122, R124), the causal flush (R140
rules 3 and 4), and room for its writes (R138). -/
def State.maySend (s : State) (r : Req) (c x : Nat) : Bool :=
  let k := s.ctx c x
  let hs := r.homes.map (·.1)
  let many := (r.kind ≠ .store || r.rel) && (s.pairs k r.src hs).length > 4
  !s.sourceBusy r && (r.kind = .load || s.streamOpen r.src hs) && (!r.rel || s.mayRelease r c x hs) &&
    (!many || s.flushed k r.src [])

/-- Updates of one descriptor apply in issue order (R99): a descriptor-bound write comes first among those pending. -/
def State.descTurn (s : State) (r : Req) : Bool :=
  match r.ret with
  | .desc c x dn _ _ _ => !((s.ctx c x).descPend.any fun p => p.1 = dn && p.2 < r.id)
  | _ => true

/-- A request of the context in focus enters the net: at once at its home when it is not tracked, executed when every
address is out of range (R14), sent, or waiting at its source. The scope of a release does not narrow what it waits for
(log entry 49). -/
def State.request (s : State) (kind : AccKind) (pieces : List Piece) (ret : Nat → Ret) (release : Bool)
    (atom : Option (AtomOp × Nat × Bool × Nat × Option Nat)) : State :=
  let c := s.fc
  let x := s.fx
  let id := s.nextId
  let ag := Agent.ctx c x
  let hs := homesOf ag pieces
  let r : Req := { id, agent := ag, kind, asid := (s.cur.task.map (·.asid)).getD 0, pieces, ret := ret id, atom,
                   key := s.old.rngkey, rstep := s.old.rngstep, stage := if release then .flush else .sent, src := dieOf c,
                   homes := hs.map fun h => (h, 0), deps := [], decl := [], rel := release, cyc := s.cycleAt ag pieces }
  let s1 : State := { s with nextId := id + 1 }
  if r.unit = 3 ∧ (!release ∨ !pieces.isEmpty) ∧ s1.descTurn r then s1.serve { r with homes := [] }
  else if hs.isEmpty then
    { s1 with net := s1.net ++ [{ r with stage := if release then .flush else .home }] }
  else
    let s2 := { s1 with net := s1.net ++ [{ r with stage := .flush }] }
    if release ∨ !s2.maySend r c x then s2 else s2.sendReq r c x

/-! ## TRACKED_PACKET_ARRIVAL (R136, R141, R142) -/

def State.findReq (s : State) (id : Nat) : Option Req := s.net.find? fun r => r.id = id

/-- Whether every pair of a packet is satisfied at its home (R139). -/
def State.satisfied (s : State) (r : Req) : Bool :=
  r.deps.all fun p => seqGe ((s.die p.1).applied.get p.2.1 0) p.2.2

/-- Whether two packets are on one stream. -/
def Req.sameStream (q r : Req) : Bool := q.src = r.src && q.homes.any fun h => r.homes.any fun g => g.1 = h.1

/-- The packets of a packet's streams that left their source before it and stand at `stage`. -/
def State.ahead (s : State) (r : Req) (stage : Stage) : List Req :=
  (s.net.takeWhile fun q => q.id ≠ r.id).filter fun q => q.stage = stage && q.sameStream r

/-- Whether its homes take a packet: those before it have arrived, and the hold buffers of its source have room (R142). -/
def State.homeTakes (s : State) (r : Req) : Bool :=
  (s.ahead r .sent).isEmpty && r.homes.all fun h =>
    (s.net.filter fun q => q.stage = .held && q.src = r.src && q.homes.any fun g => g.1 = h.1).length < 256

/-- One event in the life of a packet: it leaves its source, reaches its home, or leaves the hold buffer there, never
ahead of an earlier held packet for the same unit (R141). -/
def State.packet? (s : State) (r : Req) : Option State :=
  match r.stage with
  | .flush =>
    match r.agent with
    | .ctx c x =>
      if r.homes.isEmpty then
        if !s.sourceBusy r && s.mayRelease r c x [] then
          some (s.netMove { r with stage := .home, cyc := s.cycleAt r.agent r.pieces })
        else none
      else if s.maySend r c x then some (s.sendReq r c x) else none
    | _ =>
      if s.streamOpen r.src (r.homes.map (·.1)) then
        let out := s.numbered r.src (r.homes.map (·.1))
        some (out.1.netMove { r with stage := .sent, homes := out.2 })
      else none
  | .sent =>
    if s.homeTakes r then some (s.netSet { r with stage := if s.satisfied r then .home else .held }) else none
  | .held =>
    if s.satisfied r && !((s.ahead r .held).any fun q => q.unit = r.unit) then some (s.netSet { r with stage := .home })
    else none
  | .home => none

def State.packet (s : State) (r : Req) : State := (s.packet? r).getD s

/-! ## Service (R28, R45, R66) -/

/-- A request waits for an earlier one of its agent on a common location (R122). -/
def State.mayServe (s : State) (r : Req) : Bool :=
  r.stage = .home && s.descTurn r &&
    !(s.net.any fun q => q.id < r.id && q.agent = r.agent && s.overlaps q r) &&
    !(s.parked.any fun p => p.req.id < r.id && p.req.agent = r.agent && s.overlaps p.req r && !r.pages.contains p.page)

/-- Whether a request at its home can be served now. -/
def State.serviceReady (s : State) (r : Req) : Bool :=
  s.mayServe r &&
    match s.blocks r with
    | none => true
    | some (.fault va _ _ _) => s.canPark [] va
    | some (.behind va) => s.canPark [] va
    | some .moving => false

/-- Whether `q`, which is at its home, comes before `r` at the array that both go to next: by cycle and requester at a
scratchpad (R40), as the first to arrive at a bank of the ring (R66). -/
def State.beats (s : State) (q r : Req) : Bool :=
  match bankOf q.agent q.pieces, bankOf r.agent r.pieces with
  | some (.spad c _), some (.spad d _) => c = d && q.precedes r && s.serviceReady q
  | some (.ring i b), some (.ring j e) => i = j && b = e && s.serviceReady q
  | _, _ => false

/-- A request in its place in the net, or at the end of it. -/
def State.netPut (s : State) (r : Req) : State :=
  if s.net.any fun q => q.id = r.id then s.netSet r else { s with net := s.net ++ [r] }

/-- Serves what a request asks of one unit next: a line of a bank (R39), or what comes before its next line; the rest stays
in the net. -/
def State.serveNext (s : State) (r : Req) : State :=
  let ps := r.pieces.flatMap (s.cutPiece r)
  let banked (p : Piece) : Bool := (bankOf r.agent [p]).isSome
  let n := if ps.head?.any banked then 1 else (ps.takeWhile fun p => !banked p).length
  if r.atom.isSome || ps.length ≤ n then s.serve r
  else match s.perform { r with pieces := ps.take n } with
    | (_, _, some _) => s.serve r
    | (d, _, none) =>
      let rest := ps.drop n
      d.s.netPut { r with stage := .home, pieces := rest, prog := d.toProg
                          cyc := if n = 1 && (bankOf r.agent rest).map Bank.array = (bankOf r.agent ps).map Bank.array then r.cyc
                                 else s.cycleAt r.agent rest }

/-- An access of a unit: served when its turn has come. -/
def State.unitAccess (s : State) (id unit : Nat) : State :=
  match s.findReq id with
  | none => s
  | some r => if (r.unit = unit ∨ r.unit = 3 ∧ unit = 0) ∧ s.mayServe r then s.serveNext r else s

/-! ## Writes by physical address (R29, R136) -/

/-- The home die of a write by physical address of die `src`: the die whose memory it reaches, for the second tier `src`
itself (log entry 61). -/
def physHome (src k : Nat) : Nat := if k < secondBase then k / 2 ^ 36 % 32 else src

/-- Whether the streams of die `src` have room for writes at keys `ks` (R138). -/
def State.physOpen (s : State) (src : Nat) (ks : List Nat) : Bool := s.streamOpen src (ks.map (physHome src))

/-- A write by physical address: it takes its number and is executed in one step. It goes to no page with PROV = 1, so that
its die counts as untracked in the current window (R374, log entry 61). -/
def State.physStore (s : State) (src k : Nat) (bs : List Byte) (poison : Bool) : State :=
  (s.tracked src (physHome src k)).homeWrite k 1 bs poison

/-- A write of the resident firmware to its own data, which a rollback writes again from the saved record (R373): it marks
nothing (log entry 61). -/
def State.fwStore (s : State) (d k : Nat) (bs : List Byte) : State :=
  ((s.tracked d (physHome d k)).store k bs false).breakResv k bs.length

/-! ## Accesses that their agent waits for: engines, helper and distributor cores, ports, windows, operand reads -/

/-- What such an access has come to. -/
def State.result? (s : State) (ag : Agent) (tag : Nat) : Option Result :=
  s.results.find? fun r => r.agent = ag && r.tag = tag

/-- Whether it is still under way. -/
def State.owes (s : State) (ag : Agent) (tag : Nat) : Bool :=
  (s.net.any fun r => r.agent = ag && r.ret = .own tag) || s.parked.any fun p => p.req.agent = ag && p.req.ret = .own tag

def State.dropResult (s : State) (ag : Agent) (tag : Nat) : State :=
  { s with results := s.results.filter fun r => ¬ (r.agent = ag ∧ r.tag = tag) }

/-- Whether a piece writes. -/
def Piece.writes : Piece → Bool
  | .read _ _ => false
  | .more _ _ => false
  | _ => true

/-- Its request: writes carry a number for each part (R136). -/
def Acc.req (a : Acc) (id tag : Nat) (decl : List Nat) (key : Word) (rstep : BitVec 32) (pieces : List Piece)
    (atom : Option (AtomOp × Nat × Bool × Nat × Option Nat)) : Req :=
  { id, agent := a.agent, kind := a.kind, asid := a.asid, pieces, ret := .own tag, atom, key, rstep, stage := .home
    src := a.agent.die, homes := (homesOf a.agent pieces).map fun h => (h, 0), deps := [], decl, need := a.need }

/-- Whether a request writes: its tracked parts then carry numbers (R136). -/
def Req.writes (r : Req) : Bool := r.atom.isSome || r.pieces.any Piece.writes

/-- Whether a request that its agent makes now is served at once: its home takes it (R142), it waits for no earlier access
of the agent (R122), and none stands before it at its bank (R40). Requests from `since` on do not count. -/
def State.goesNow (s : State) (r : Req) (since : Nat) : Bool :=
  let t : State := { s with net := s.net.filter fun q => q.id < since }
  t.homeTakes r && t.mayServe r && !(t.net.any fun q => t.beats q r)

/-- It enters the machine: its writes take their numbers (R136), unless a stream is full, and it is served when its turn
has come. -/
def State.submit (s : State) (r : Req) : State :=
  let s1 : State := { s with nextId := s.nextId + 1 }
  let hs := r.homes.map (·.1)
  if r.writes && !s1.streamOpen r.src hs then { s1 with net := s1.net ++ [{ r with stage := .flush }] }
  else
    let out := if r.writes then s1.numbered r.src hs else (s1, r.homes)
    let q : Req := { r with homes := out.2, cyc := s.cycleAt r.agent r.pieces }
    if out.1.goesNow q q.id then out.1.serveNext q
    else { out.1 with net := out.1.net ++ [{ q with stage := if s.homeTakes q then .home else .sent }] }

/-- What asking for an access gives: what it did, nothing yet, or a state in which it has been made and waits. -/
inductive Asked
  | got (p : Prog) (decl : List Nat) (s : State)
  | still
  | went (s : State)

/-- Makes an access under a tag, or takes what it has come to. -/
def State.ask (s : State) (a : Acc) (tag : Nat) (decl : List Nat) (key : Word) (rstep : BitVec 32) (pieces : List Piece)
    (atom : Option (AtomOp × Nat × Bool × Nat × Option Nat)) : Asked :=
  match s.result? a.agent tag with
  | some r => .got r.prog r.decl (s.dropResult a.agent tag)
  | none =>
    if s.owes a.agent tag then .still
    else
      let s1 := s.submit (a.req s.nextId tag decl key rstep pieces atom)
      match s1.result? a.agent tag with
      | some r => .got r.prog r.decl (s1.dropResult a.agent tag)
      | none => .went s1

/-- Whether reads that an agent makes now come before no access that stands ahead of them: those of its own bundle do not
count. -/
def State.readsNow (s : State) (a : Acc) (ps : List (Nat × Nat)) : Bool :=
  let pieces := ps.map fun p => Piece.read p.1 p.2
  s.net.isEmpty ||
    s.goesNow { a.req s.since 0 [] 0 0 pieces none with cyc := s.cycleAt a.agent pieces } s.since

/-- Reads under a tag: at once when nothing blocks them. -/
def State.askRead (s : State) (a : Acc) (tag : Nat) (decl : List Nat) (ps : List (Nat × Nat)) : Asked :=
  if (s.result? a.agent tag).isNone && !s.owes a.agent tag &&
      (s.blocked a (ps.flatMap fun p => parts p.1 p.2 .raw) 0 decl).isNone && s.readsNow a ps then
    .got { data := ps.map fun p => s.readParts a decl (cuts p.1 p.2) } decl s
  else s.ask a tag decl 0 0 (ps.map fun p => .read p.1 p.2) none

/-- The agent no longer waits: what it has asked for is made without it; the add of a spawn (tag 1) stays its own. -/
def State.forget (s : State) (ag : Agent) : State :=
  let mine (r : Req) : Bool := r.agent = ag && r.ret.owned && r.ret ≠ .own 1
  if (s.results.any fun r => r.agent = ag && r.tag ≠ 1) || s.net.any mine || s.parked.any fun p => mine p.req then
    { s with results := s.results.filter fun r => ¬ (r.agent = ag ∧ r.tag ≠ 1)
             net := s.net.map fun r => if mine r then { r with ret := .none } else r
             parked := s.parked.map fun p => if mine p.req then { p with req := { p.req with ret := .none } } else p }
  else s

/-- Whether an agent waits for something it has asked for. -/
def State.awaits (s : State) (ag : Agent) : Bool :=
  (s.results.any fun r => r.agent = ag) || (s.net.any fun r => r.agent = ag && r.ret.owned) ||
    s.parked.any fun p => p.req.agent = ag && p.req.ret.owned

/-- The tag of a read of an agent that makes it again until it has used it. -/
def readTag (a : Acc) (va n : Nat) : Nat := 2 + (((a.asid * 2 ^ 56 + va) * 2 ^ 20 + n) * 16 + a.kind.code)

/-- What a read that may have to wait gives: bytes with their poison, or the state that waits. -/
inductive Got
  | ready (bs : List (Byte × Bool))
  | blocked (s : State)

/-- A read of [va, va + n) that its agent makes at once or waits for; what it has waited for stays until it forgets it. -/
def State.readNow (s : State) (a : Acc) (va n : Nat) : Got :=
  let tag := readTag a va n
  match s.result? a.agent tag with
  | some r => .ready r.prog.data.flatten
  | none =>
    if s.owes a.agent tag then .blocked s
    else if (s.blocked a (parts va n .raw) 0 []).isNone && s.readsNow a [(va, n)] then .ready (s.readParts a [] (cuts va n))
    else .blocked (s.submit (a.req s.nextId tag [] 0 0 [.read va n] none))

/-! ## Instruction fetch (R13, R26, R199) -/

/-- A word of code: its value, or the address of a word that is poisoned or declined, or nothing yet. -/
inductive Fetched
  | word (w : Nat)
  | bad (va : Nat)
  | blocked (s : State)

/-- Fetches a 32-bit word of code; only translated space holds code (log entry 20). -/
def State.fetch (s : State) (ag : Agent) (asid va : Nat) : Fetched :=
  match spot ag va with
  | .page =>
    match s.readNow { agent := ag, kind := .fetch, asid } va 4 with
    | .blocked s' => .blocked s'
    | .ready bs => if gotPoison bs then .bad va else .word (gotNat bs)
  | _ => .bad va

/-- Words of code at consecutive addresses. -/
inductive Words
  | ok (ws : List Nat)
  | bad (va : Nat)
  | blocked (s : State)

def State.fetchWords (s : State) (ag : Agent) (asid va : Nat) : Nat → Words
  | 0 => .ok []
  | n + 1 =>
    match s.fetch ag asid va with
    | .bad a => .bad a
    | .blocked s' => .blocked s'
    | .word w =>
      match s.fetchWords ag asid (va + 4) n with
      | .ok ws => .ok (w :: ws)
      | r => r

/-! ## The way back (R62, R63, R214) -/

/-- Early data held in the landing buffer of a core (R62). -/
def Core.heldEarly (k : Core) : Nat := (k.ctxs.map fun p => (p.2.pend.filter fun q => q.held).length).sum

/-- The data of a reply joins its pending landing, in an entry of the landing buffer when it is early; a landing that was
abandoned takes nothing (R360). -/
def Ctx.arrive (k : Ctx) (r : Reply) (early : Bool) : Ctx :=
  { k with pend := k.pend.map fun p =>
      if p.landed ∧ p.req = r.id then { p with arrived := true, val := r.val, poison := r.poison, sat := r.sat, held := early }
      else p }

/-- Whether the landing of a reply is still to come. -/
def State.early (s : State) (r : Reply) : Bool :=
  (s.ctx r.core r.x).pend.any fun p => p.landed && p.req = r.id && (s.core r.core).cycle < p.due

/-- Whether the core's input is free for a reply: no other waits there (R63). -/
def State.inputFree (s : State) (r : Reply) : Bool :=
  r.input || !(s.replies.any fun q => q.core = r.core && q.input && q.id ≠ r.id)

/-- The reply leaves the net. -/
def State.take (s : State) (r : Reply) : State :=
  { s with replies := s.replies.filter fun q => q.id ≠ r.id }.onCtx r.core r.x fun k => k.arrive r (s.early r)

/-- Frozen cycles go by: landing-buffer entries whose landing cycles pass meanwhile leave the buffer (R63). -/
def Core.freezeOn (k : Core) : Core :=
  { k with frzcnt := k.frzcnt + 1, frozenFor := k.frozenFor + 1
           ctxs := k.ctxs.map fun p =>
             (p.1, { p.2 with pend := p.2.pend.map fun q => { q with held := q.held && k.cycle + k.frozenFor < q.due } }) }

/-- Writes the results of a context whose cycle has come and that `which` picks: results in issue order (R208, R214). -/
def State.writeDue (s : State) (c x : Nat) (which : Pend → Bool) : State :=
  let k := s.core c
  let due := (k.ctx x).pend.filter fun p => p.due ≤ k.cycle && p.arrived && which p
  let k1 := due.foldl (fun (k : Core) p =>
    let k := match p.dest with
      | .acc t => { k with acc := k.acc.set t { (k.acc.get t {}) with full := true } }
      | _ => k.put x p.dest p.val p.poison
    k.onCtx x fun c => c.count p.sat) k
  s.setCore c (k1.onCtx x fun q => { q with pend := q.pend.filter fun p => ¬ (p.due ≤ k.cycle ∧ p.arrived ∧ which p) })

end Sys2Proof.Machine
end

