-- ==== Sys2Proof/Machine/Branch.lean ====
section
/-! DEFINITION. Meanings of branches, calls and loops (R242-R249); what the end of a pass does. -/

namespace Sys2Proof.Machine

/-- Abandons an active loop (R249). -/
def Ctx.dropLoop (k : Ctx) : Ctx := { k with loop := k.loop.dropped }

/-- The context's address space. -/
def Ctx.asid (k : Ctx) : Nat := (k.task.map (·.asid)).getD 0

/-- Goes on with WORDS of the header at an address; a header that cannot be fetched takes the fetch trap at the
operation's own bundle, reported with slot 0 (R244, R247, R347). -/
def State.withWords (s : State) (va : Nat) (go : Nat → State) : State :=
  match s.fetch s.focus s.old.asid va with
  | .word w => go (fld w 0 4)
  | .bad a => s.trap 10 (BitVec.ofNat 64 a) 0
  | .blocked s' => s'.wait .fetch

/-- The address H + 4 × disp, in the 56 bits of a header address. -/
def State.target (s : State) (disp : Int) : Nat := (((s.old.pc : Int) + 4 * disp) % 2 ^ 56).toNat

/-- A taken branch (R218, R249): illegal in a shadow bundle. -/
def State.jump (s : State) (slot : Nat) (r : Redirect) : State :=
  if s.old.target.isSome then s.illegal slot
  else s.onCur fun k => { k.dropLoop with redirect := some r }

/-- A taken call: the return address follows the shadow bundle (R244). -/
def State.linkTo (s : State) (slot : Nat) (d : Dest) (a : Nat) : State :=
  if s.old.target.isSome then s.illegal slot
  else s.withWords s.old.pc fun w =>
    let sh := (s.old.pc + 4 * w) % 2 ^ 56
    s.withWords sh fun w2 =>
      (s.result 1 d (BitVec.ofNat 2048 ((sh + 4 * w2) % 2 ^ 56)) false 0).jump slot (.shadow a)

def dispNeed (t : DispF) : Need := { slot := t.slot, pred := t.pred, srcs := [], dests := [] }

def execBra (t : DispF) (s : State) : Out := .next (s.issue (dispNeed t) fun s => s.jump t.slot (.shadow (s.target t.disp)))

/-- The shadow bundle of a BRC is fetched, whatever the fetch gives; one that parks waits on its own (R242). -/
def State.fetchShadow (s : State) : State :=
  match s.fetch s.focus s.old.asid s.old.pc with
  | .word w =>
    let sh := (s.old.pc + 4 * fld w 0 4) % 2 ^ 56
    match s.fetch s.focus s.old.asid sh with
    | .word h =>
      match s.fetchWords s.focus s.old.asid (sh + 4) (fld h 0 4 - 1) with
      | .blocked s' => s'
      | _ => s
    | .blocked s' => s'
    | .bad _ => s
  | _ => s

/-- BRC cancels its shadow: in the next cycle the context is no candidate (R242). -/
def execBrc (t : DispF) (s : State) : Out :=
  .next (s.issue (dispNeed t) fun s =>
    if s.old.target.isSome then s.illegal t.slot
    else (s.fetchShadow.jump t.slot (.to (s.target t.disp))).onCur fun k => { k with startAt := s.fcore.cycle + 2 })

def execCall (t : DispF) (s : State) : Out :=
  .next (s.issue { dispNeed t with dests := [.g 31] } fun s => s.linkTo t.slot (.g 31) (s.target t.disp))

/-- A register branch: its target is consumed, and must be a multiple of 4 (R227, R243). -/
def State.jumpReg (s : State) (t : Tri) : State :=
  s.issue { slot := t.slot, pred := t.pred, srcs := [srcA t], dests := [], eats := [srcA t] } fun s =>
    let a := (s.valA t).toNat
    if a % 4 ≠ 0 then s.illegal t.slot else s.jump t.slot (.shadow a)

def execBrr (t : Tri) (s : State) : Out := .next (s.jumpReg t)
def execRet (t : Tri) (s : State) : Out := .next (s.jumpReg t)

/-- CALLR. With d = 0, too, it issues only when the header of its shadow bundle has been fetched: R244 asks this of every
CALLR and has this one act as BRR (DESIGN CHOICE, log entry 68). -/
def execCallr (t : Tri) (s : State) : Out :=
  .next (s.issue { slot := t.slot, pred := t.pred, srcs := [srcA t], dests := [s.dg t.d], eats := [srcA t] } fun s =>
    let a := (s.valA t).toNat
    if a % 4 ≠ 0 then s.illegal t.slot else s.linkTo t.slot (s.dg t.d) a)

/-- P8 := b and, when `clear`, P9 to P15 := 0, by physical number (R247, R248). -/
def Ctx.setP (k : Ctx) (n : Nat) (b : Bool) : Ctx := { k with p := k.p.set n { val := b, full := true } }

/-- The loop state that LOOP and LOOPX set (R247). -/
def Ctx.beginLoop (k : Ctx) (n stages start last : Nat) (x : Bool) : Ctx :=
  let k1 := [9, 10, 11, 12, 13, 14, 15].foldl (fun k i => k.setP i false) (k.setP 8 true)
  { k1 with gb := 0, vb := 0, pb := 0, loopBegan := true
            loop := { count := min (n + stages - 1) (2 ^ 64 - 1), sm1 := stages - 1, act := true, x, exited := false,
                      start, last } }

/-- LOOP and LOOPX (R247): a ROT bit in their bundle rotates nothing, whatever N is. -/
def State.loopOp (s : State) (t : ImmF) (x : Bool) : State :=
  s.issue { slot := t.slot, pred := t.pred, srcs := [.g t.a t.ba], dests := [], eats := [.g t.a t.ba] } fun s =>
    let n := (s.g t.a).val.toNat
    let last := s.target t.imm
    if s.old.target.isSome ∨ s.old.loop.act then s.illegal t.slot
    else if n = 0 then
      s.withWords last fun w => s.onCur fun k =>
        { k with redirect := some (.to ((last + 4 * w) % 2 ^ 56)), loopBegan := true }
    else s.withWords s.old.pc fun w =>
      s.onCur fun k => k.beginLoop n (t.d + 1) ((s.old.pc + 4 * w) % 2 ^ 56) last x

def execLoop (t : ImmF) (s : State) : Out := .next (s.loopOp t false)
def execLoopx (t : ImmF) (s : State) : Out := .next (s.loopOp t true)

/-- Rotates the bases once (R202). -/
def Ctx.rotate (k : Ctx) : Ctx := { k with gb := (k.gb + 31) % 32, vb := (k.vb + 31) % 32, pb := (k.pb + 7) % 8 }

/-- LOOP_PASS_END (R248): the count after the pass, the exit, the rotation, the new P8, and whether the loop goes on. -/
def Ctx.passEnd (k : Ctx) : Ctx :=
  let l := k.loop
  let c := l.count - 1
  let exit := l.x ∧ ¬ l.exited ∧ (k.pAt 7).val
  let c := if exit then min c l.sm1 else c
  let ex := l.exited ∨ exit
  let k1 := k.rotate
  let k2 := k1.setP (rot8 k1.pb 8) (decide (c ≥ l.sm1 + 1) && !decide ex)
  { k2 with loop := { l with count := c, exited := decide ex, act := decide (c ≠ 0) } }

end Sys2Proof.Machine
end

