-- ==== Sys2Proof/Machine/Block.lean ====
section
/-! DEFINITION. What the distributors' resident firmware keeps in memory and reads back: the selection log with its
progress words (R185), the state block of each die (R432), the journal (R341, R431). -/

namespace Sys2Proof.Machine

/-! ## Places -/

/-- The selection log in device memory of die 0, which boot firmware sets aside (R185). -/
def logKey : Nat := deviceKey 0 (Config.logBase % 2 ^ 35 / 256 * 256)

/-- Where log entry `seq` lies. -/
def logEntryKey (seq : Nat) : Nat := logKey + (seq - 1) % 4096 * 256

/-- The progress word of a die, in the array that follows the log (R185). -/
def progressKey (d : Nat) : Nat := logKey + 4096 * 256 + 4 * d

/-- The state block that each distributor keeps in its die's device memory (R432), where R434's listing has it. -/
def blockKey (d : Nat) : Nat := deviceKey d 0x40000000

def copyKey (d seq : Nat) : Nat := blockKey d + 0x100 * (seq % 2)
def pendKey (d : Nat) : Nat := blockKey d + 0x200
def jbufKey (d : Nat) : Nat := blockKey d + 0x240
def ticketKey (d ticket : Nat) : Nat := blockKey d + 0x400 + 128 * (ticket / 2 ^ 32 % 32) + 4 * (ticket % 32)
def nodeKey (d seq : Nat) : Nat := blockKey d + 0x1000 + 32 * (seq % 4096)

/-! ## The selection log -/

/-- An entry's 256 bytes in the ring. -/
def LogEntry.bytes (e : LogEntry) : List Byte :=
  let head := leBytes 4 e.seq ++ [BitVec.ofNat 8 e.kind, BitVec.ofNat 8 e.queue, 0, 0] ++ leBytes 4 e.slot
  let body := if e.kind = 0 then ((e.record ++ List.replicate 16 0).take 16).flatMap fun (w : Word) => leBytes 8 w.toNat
    else leBytes 80 e.map.toNat ++ List.replicate 48 0
  head ++ List.replicate 116 0 ++ body

def State.writeLog (s : State) (e : LogEntry) : State := s.fwStore 0 (logEntryKey e.seq) e.bytes

/-- The words of a slot. -/
def slotWords (bs : List Byte) : List Word := (List.range 16).map fun i => BitVec.ofNat 64 (leNat ((bs.drop (8 * i)).take 8))

/-- Log entry `seq` as a distributor reads it with LDA.dv.acq: none while the entry's place holds another SEQ. A poisoned
entry is not there (log entry 46). -/
def State.logEntry (s : State) (seq : Nat) : Option LogEntry :=
  let k := logEntryKey seq
  if s.nat k 4 ≠ seq || s.poisoned k 256 then none
  else
    let kind := s.nat (k + 4) 1
    some { seq, kind, queue := s.nat (k + 5) 1 % 64, slot := s.nat (k + 8) 4
           record := if kind = 0 then slotWords (s.bytes (k + 128) 128) else []
           map := if kind = 0 then 0 else BitVec.ofNat 640 (s.nat (k + 128) 80) }

/-- The entries of the log, oldest first. -/
def State.logEntries (s : State) : List LogEntry :=
  (List.range (min 4096 s.logSeq)).reverse.filterMap fun i => s.logEntry (s.logSeq - i)

/-- The newest log entry of a node. -/
def State.nodeEntry (s : State) (node : Word) : Option LogEntry :=
  (List.range (min 4096 s.logSeq)).findSome? fun i =>
    (s.logEntry (s.logSeq - i)).filter fun e => e.kind = 0 && e.record.getD 6 0 = node

/-- The SEQ of a die's last finished entry: 0 before the first entry is written. -/
def State.progressOf (s : State) (d : Nat) : Nat := if s.logSeq = 0 then 0 else s.nat (progressKey d) 4

/-- A progress word, which only goes forward: a step that a relief repeats leaves it. -/
def State.writeProgress (s : State) (d n : Nat) : State :=
  if s.progressOf d < n then s.fwStore d (progressKey d) (leBytes 4 n) else s

/-! ## The state block -/

/-- A copy of the cursors. -/
def State.cursAt (s : State) (d seq : Nat) : Cursors :=
  let k := copyKey d seq
  { cur := s.nat k 1 % 160, dcur := s.nat (k + 1) 1 % 32
    rr := (List.range 8).map fun p => (p, s.nat (k + 8 + p) 1 % 64)
    cc := (List.range 160).map fun c => (c, s.nat (k + 16 + c) 1 % 4)
    offline := BitVec.ofNat 640 (s.nat (k + 176) 80) }

/-- The offline map alone. -/
def State.offlineAt (s : State) (d seq : Nat) : BitVec 640 := BitVec.ofNat 640 (s.nat (copyKey d seq + 176) 80)

/-- The cursors of a die: those after its last finished entry (R186, R432). -/
def State.curs (s : State) (d : Nat) : Cursors := s.cursAt d (s.progressOf d)

/-- The offline map that a die applies (R187). -/
def State.offlineOf (s : State) (d : Nat) : BitVec 640 := s.offlineAt d (s.progressOf d)

/-- The offline maps asked for that die 0 has not applied (R187): that of the newest log entry, those that wait. -/
def State.mapsDue (s : State) : List (BitVec 640) :=
  (((if s.progressOf 0 < s.logSeq then s.logEntry s.logSeq else none).filter fun e => e.kind = 1).map (·.map)).toList ++
    s.mapPend

/-- The newest offline map asked for. -/
def State.newestMap (s : State) : BitVec 640 := s.mapsDue.getLastD (s.offlineOf 0)

/-- The bytes of a copy: bytes that R432 does not name are 0. -/
def Cursors.bytes (k : Cursors) : List Byte :=
  leBytes 1 k.cur ++ leBytes 7 k.dcur ++ ((List.range 8).flatMap fun p => leBytes 1 (k.rr.get p 0)) ++
    ((List.range 160).flatMap fun c => leBytes 1 (k.cc.get c 0)) ++ leBytes 80 k.offline.toNat

/-- The copy of the cursors that entry `seq` writes. -/
def State.writeCursors (s : State) (d seq : Nat) (k : Cursors) : State := s.fwStore d (copyKey d seq) k.bytes

/-- The ticket table's word of a task. -/
def State.ticketSeq (s : State) (d ticket : Nat) : Nat := s.nat (ticketKey d ticket) 4

def State.writeTicket (s : State) (d ticket seq : Nat) : State := s.fwStore d (ticketKey d ticket) (leBytes 4 seq)

/-- The node table's entry of a node. -/
def State.share (s : State) (d seq : Nat) : Share :=
  let k := nodeKey d seq
  { seq, ncc := s.nat k 8, nccEnd := s.nat (k + 8) 8, mem := s.nat (k + 16) 2, ended := s.nat (k + 18) 2
    queue := s.nat (k + 20) 1 % 64, cev := s.nat (k + 20) 1 / 64 % 2 = 1, asid := s.nat (k + 22) 1 % 64
    nodeId := BitVec.ofNat 64 (s.nat (k + 24) 8) }

def Share.bytes (h : Share) : List Byte :=
  leBytes 8 h.ncc ++ leBytes 8 h.nccEnd ++ leBytes 2 h.mem ++ leBytes 2 h.ended ++
    [BitVec.ofNat 8 (h.queue % 64 + 64 * h.cev.toNat), 0, BitVec.ofNat 8 h.asid, 0] ++ leBytes 8 h.nodeId.toNat

def State.writeShare (s : State) (d : Nat) (h : Share) : State := s.fwStore d (nodeKey d h.seq) h.bytes

/-- The newest of a die's nodes with a completion pair, and with a NODEID when one is given. -/
def State.shareOf (s : State) (d ncc : Nat) (node : Option Word) : Option Share :=
  (List.range (min 4096 (s.progressOf d))).findSome? fun i =>
    (some (s.share d (s.progressOf d - i))).filter fun h => h.ncc = ncc && node.all (· = h.nodeId)

/-- PEND: the queues to look at again. -/
def State.pend (s : State) (d : Nat) : BitVec 64 := BitVec.ofNat 64 (s.nat (pendKey d) 8)
def State.writePend (s : State) (d : Nat) (v : BitVec 64) : State := s.fwStore d (pendKey d) (leBytes 8 v.toNat)

/-! ## The journal (R341, R431) -/

/-- Appends an entry: SEQ, TYPE, bytes 8 to 63 (those not named are 0); the firmware builds it in JBUF. -/
def State.journal (s : State) (d typ : Nat) (body : List Byte) : State :=
  let n := (s.die d).jtail
  let bs := (leBytes 4 n ++ [BitVec.ofNat 8 typ, 0, 0, 0] ++ body ++ List.replicate (56 - body.length) 0).take 64
  ((s.fwStore d (jbufKey d + 4) (bs.drop 4)).poke (journalKey d (64 * (n % 16384))) bs).onDie d fun k =>
    { k with jtail := (n + 1) % 2 ^ 32 }

/-- A field of journal entry `n`. -/
def State.jfield (s : State) (d n off len : Nat) : Nat := s.nat (journalKey d (64 * (n % 16384)) + off) len

/-- Whether one of the eight newest entries is an END with this ticket (R433). -/
def State.ended (s : State) (d : Nat) (ticket : Word) : Bool :=
  (List.range 8).any fun i =>
    let n := (s.die d).jtail
    i < n && s.jfield d (n - 1 - i) 4 1 = 5 && s.jfield d (n - 1 - i) 8 8 = ticket.toNat

end Sys2Proof.Machine
end

