-- ==== Sys2Proof/Machine/Memory.lean ====
section
/-! DEFINITION. Meanings of the memory map (R250-R264): loads, stores, acquire and release, vector and descriptor
accesses, atomics, fences, the tag table (R51-R54), spills (R58-R61). -/

namespace Sys2Proof.Machine

/-! ## Shared shapes -/

/-- A landed load (R213, R214): its request, and its destination empty until c + N. -/
def State.loadTo (s : State) (N : Nat) (d : Dest) (kind : AccKind) (pieces : List Piece) (conv : Conv) (release : Bool)
    (atom : Option (AtomOp × Nat × Bool × Nat × Option Nat)) : State :=
  let id := s.nextId
  (s.request kind pieces (fun _ => .reg s.fc s.fx conv) release atom).landAt N d id false

/-- A store of pieces without result. -/
def State.storeOf (s : State) (pieces : List Piece) (release : Bool) : State :=
  s.request .store pieces (fun _ => .none) release none

/-- A store declined at once (R255). -/
def State.declineNow (s : State) (va : Nat) : State :=
  { s with nextId := s.nextId + 1 }.onCur fun k => k.declineStore s.nextId va

/-- What a LAND operation needs: its address consumed, its destination free. -/
def landNeed (t : LandF) (d : Dest) : Need :=
  { slot := t.slot, pred := t.pred, srcs := [.g t.a t.ba], dests := [d], eats := [.g t.a t.ba] }

/-- What a STORE operation needs: store data is not consumed (R250). -/
def storeNeed (t : StoreF) (data : Src) : Need :=
  { slot := t.slot, pred := t.pred, srcs := [data, .g t.a t.ba], dests := [], eats := [.g t.a t.ba] }

/-- Bytes and extension of a form of LD (R252). -/
def ldForm : LdKind → Nat × Conv
  | .i8 => (1, .sext 8) | .i16 => (2, .sext 16) | .i32 => (4, .sext 32) | .i64 => (8, .zext 64)
  | .n8 => (1, .zext 8) | .n16 => (2, .zext 16) | .n32 => (4, .zext 32)

/-- A scalar store's element: the low bytes of the register as an integer (R24, R253). -/
def scalarElem (va : Nat) (z : MemSize) (r : GReg) : Piece :=
  .elem va 0 (sx (r.val.toNat : Nat) (8 * mBytes z)) (8 * mBytes z) false false 0 0 r.poison

/-! ## Scalar loads and stores (R252-R255) -/

def execLd (z : LdKind) (t : LandF) (s : State) : Out :=
  .next (s.issue (landNeed t (s.dg t.d)) fun s =>
    s.loadTo t.land (s.dg t.d) .load [.read (s.addrOf t.a t.disp) (ldForm z).1] (ldForm z).2 false none)

def execSt (z : MemSize) (t : StoreF) (s : State) : Out :=
  .next (s.issue (storeNeed t (.g t.src t.bs)) fun s =>
    s.storeOf [scalarElem (s.addrOf t.a t.off) z (s.g t.src)] false)

/-- LDA. The scope operand of LDA, STL, FENCE and of an atomic is not looked at: every pair is ordered as if it
synchronised (R120, log entry 49). -/
def execLda (_ : Scope) (z : MemSize) (t : LandF) (s : State) : Out :=
  .next (s.issue (landNeed t (s.dg t.d)) fun s =>
    let va := s.addrOf t.a t.disp
    if va % mBytes z ≠ 0 then s.landLost t.land (s.dg t.d)
    else s.loadTo t.land (s.dg t.d) .load [.read va (mBytes z)] (.zext (8 * mBytes z)) false none)

/-- STL, ordered at every scope alike (log entry 49). -/
def execStl (_ : Scope) (z : MemSize) (t : StoreF) (s : State) : Out :=
  .next (s.issue (storeNeed t (.g t.src t.bs)) fun s =>
    s.eatDecl t.slot fun s =>
      let va := s.addrOf t.a t.off
      if va % mBytes z ≠ 0 then s.declineNow va
      else s.storeOf [scalarElem va z (s.g t.src)] true)

/-! ## Vector loads and stores (R256-R259) -/

def execVld (t : LandF) (s : State) : Out :=
  .next (s.issue (landNeed t (s.dv t.d)) fun s =>
    s.loadTo t.land (s.dv t.d) .load [.read (s.addrOf t.a t.disp) 256] .vec false none)

/-- Fields of a descriptor access word (R257). -/
def dawDn (a : Nat) : Nat := fld a 0 5
def dawLw (a : Nat) : Nat := fld a 5 2
def dawCm (a : Nat) : Bool := bit a 7
def dawDsh (a : Nat) : Nat := fld a 8 6
def dawMode (a : Nat) : Nat := fld a 14 2
def dawStart (a : Nat) : Nat := fld a 16 32
def dawEs (a : Nat) : Int := sx (fld a 48 8 : Nat) 8
def dawOk (a : Nat) : Bool := bit a 63 && fld a 56 7 = 0

/-- The lanes of a descriptor access that make an access, with their element numbers (R257). -/
def dawLanes (d : BitVec 1024) (a : Nat) (disp : Int) : List (Nat × Nat) :=
  (List.range (256 / 2 ^ dawLw a)).filterMap fun (m : Nat) =>
    let j : Int := (dawStart a : Int) + disp + (m : Int)
    if 0 ≤ j ∧ j < dCount d then some (m, j.toNat) else none

/-- VST through a descriptor (R259): one descriptor-bound write of the lanes in ascending order. -/
def State.vstBound (s : State) (t : StoreF) : State :=
  s.issue (storeNeed t (.v t.src t.bs)) fun s =>
    let a := (s.g t.a).val.toNat
    let dn := dawDn a
    let d := s.cur.dAt dn
    if !dawOk a then s.declineNow a
    else if dawCm a ∧ s.cur.descBusy dn then s.wait .desc
    else if dBad d s.cur.cbV then s.illegal t.slot
    else
      let shift := if dawCm a then censusShift d else dawDsh a
      let mode := if dawMode a = 3 then dRnd d else dawMode a
      let lw := 8 * 2 ^ dawLw a
      let v := s.v t.src
      let pieces := (dawLanes d a t.off).map fun (m, j) =>
        Piece.elem (dBase d) (dLin d j) (lane lw v.val m) (fmtWidth (dFmt d)) (fmtUnsigned (dFmt d)) (dFmt d = 9) shift
          mode v.poison
      (s.onCur fun k => { k with descPend := k.descPend ++ [(dn, s.nextId)] }).request .store pieces
        (fun _ => .desc s.fc s.fx dn shift (dawEs a) d) false none

def execVst (t : StoreF) (s : State) : Out :=
  .next (if bit (s.g t.a).val.toNat 63 then s.vstBound t
    else s.issue (storeNeed t (.v t.src t.bs)) fun s =>
      s.storeOf [.raw (s.addrOf t.a t.off) (leBytes 256 (s.v t.src).val.toNat) (s.v t.src).poison] false)

def execVstDescriptor (t : StoreF) (s : State) : Out := .next (s.vstBound t)

def execVlds (t : LandF) (s : State) : Out :=
  .next (s.issue (landNeed t (s.dv t.d)) fun s =>
    let a := (s.g t.a).val.toNat
    let dn := dawDn a
    let d := s.cur.dAt dn
    if !dawOk a then s.landLost t.land (s.dv t.d)
    else if s.cur.descBusy dn then s.wait .desc
    else if dBad d s.cur.cbV || dFmt d = 9 then s.illegal t.slot
    else
      let w := fmtWidth (dFmt d)
      let ls := dawLanes d a t.disp
      s.loadTo t.land (s.dv t.d) .load (ls.map fun p => .read (elemAddr (dBase d) (dLin d p.2) w) (max 1 (w / 8)))
        (.lanes (dawLw a) (dFmt d) (ls.map (·.1)) (ls.map fun p => elemHi (dLin d p.2) w)) false none)

/-! ## Atomics and fences (R260-R262) -/

/-- The width in bytes that SZ names. -/
def atomBytes (x : Nat) : Nat := if bit x 12 then 8 else 4

/-- An atomic or CAS: a release is sent after the flush and consumes the declined-store flag (R261). -/
def State.atomOp (s : State) (op : AtomOp) (o : Order) (t : Tri) (cas : Bool) : State :=
  let x := t.ext.getD 0
  let cmp := Src.g (fld x 14 6) (bit x 20)
  let srcs := [srcA t, srcB t] ++ if cas then [cmp] else []
  s.issue { slot := t.slot, pred := t.pred, srcs, dests := [s.dg t.d], eats := srcs } fun s =>
    let go (s : State) : State :=
      let n := atomBytes x
      s.loadTo (fld x 0 12) (s.dg t.d) .atomic [.read (s.valA t).toNat n] (.zext (8 * n)) (o = .rel || o = .ar)
        (some (op, n, bit x 13, (s.g t.b).val.toNat, if cas then some (s.g (fld x 14 6)).val.toNat else none))
    if o = .rel ∨ o = .ar then s.eatDecl t.slot go else go s

def execAtom (op : AtomOp) (_ : Scope) (o : Order) (t : Tri) (s : State) : Out := .next (s.atomOp op o t false)
def execCas (_ : Scope) (o : Order) (t : Tri) (s : State) : Out := .next (s.atomOp .swap o t true)

/-- Every earlier load and atomic of the context in focus has landed. -/
def State.allLanded (s : State) : Bool := s.old.landedBefore s.since

/-- The causal flush for the whole past of the context in focus (R129, R140). -/
def State.flushDone (s : State) : Bool :=
  s.allLanded && s.flushed s.old (dieOf s.fc) [] && s.spadDone s.focus s.since &&
    !(s.net.any fun q => q.agent = s.focus && q.id < s.since && q.stage = .flush)

/-- FENCE, ordered at every scope alike (log entry 49). -/
def execFence (_ : Scope) (o : Order) (t : NoneF) (s : State) : Out :=
  .next (s.issue { slot := t.slot, pred := t.pred, srcs := [], dests := [] } fun s =>
    if (if o = .acq then s.allLanded else s.flushDone) then s.eatDecl t.slot id else s.wait .other)

/-! ## Tag table (R51-R54, R263) -/

def tagV (e : Word) : Bool := e.getLsbD 0
def tagKey (e : Word) : Nat := fld e.toNat 14 42

/-- The valid entry of a key, if any. -/
def Core.tagOf (k : Core) (key : Nat) : Option (Nat × Word) := k.tags.find? fun p => tagV p.2 && tagKey p.2 = key

/-- TSET's status and the table it leaves (R53). -/
def Core.tagSet (k : Core) (slot : Nat) (x : Word) : Nat × Core :=
  let old := k.tags.get slot 0
  let new : Word := BitVec.ofNat 64 (fld x.toNat 0 56 / 2 * 2 + 1)
  if slot < k.dslots ∨ slot > 511 then (3, k)
  else if tagV old then
    if tagKey old = tagKey x then (0, { k with tags := k.tags.set slot new }) else (1, k)
  else if (k.tagOf (tagKey x)).isSome then (2, k)
  else (0, { k with tags := k.tags.set slot new })

/-- What a tag operation needs. -/
def tagNeed (s : State) (t : Tri) (srcs : List Src) : Need :=
  { slot := t.slot, pred := t.pred, srcs, dests := [s.dg t.d], eats := srcs }

def execTlook (t : Tri) (s : State) : Out :=
  .next (s.issue (tagNeed s t [srcA t]) fun s =>
    let r : Word := match s.fcore.tagOf (tagKey (s.valA t)) with
      | some (i, e) => BitVec.ofNat 64 (fld e.toNat 1 13 * 2 ^ 16 + i)
      | none => BitVec.allOnes 64
    s.result 2 (s.dg t.d) (wide r) false 0)

def execTset (t : Tri) (s : State) : Out :=
  .next (s.issue (tagNeed s t [srcA t, srcB t]) fun s =>
    let r := s.fcore.tagSet (s.valA t).toNat (s.g t.b).val
    (s.onFc fun _ => r.2).result 2 (s.dg t.d) (BitVec.ofNat 2048 r.1) false 0)

def execTclr (t : Tri) (s : State) : Out :=
  .next (s.issue (tagNeed s t [srcA t]) fun s =>
    let i := (s.valA t).toNat
    if i < s.fcore.dslots ∨ i > 511 then s.result 2 (s.dg t.d) 0 false 0
    else
      let e := s.fcore.tags.get i 0
      (s.onFc fun k => { k with tags := k.tags.set i (e &&& ~~~1) }).result 2 (s.dg t.d) (wide e) false 0)

def execTinv (t : Tri) (s : State) : Out :=
  .next (s.issue (tagNeed s t []) fun s =>
    let n := (s.fcore.tags.filter fun p => tagV p.2).length
    (s.onFc fun k => { k with tags := k.tags.map fun p => (p.1, p.2 &&& ~~~1) }).result 2 (s.dg t.d)
      (BitVec.ofNat 2048 n) false 0)

/-! ## Spills (R58-R61, R264) -/

/-- Whether a context holds a task. -/
def Ctx.busy (k : Ctx) : Bool := k.task.isSome

/-- Whether a spill location exists now: a half-column of an unclaimed tile (256 t + 2 j + half), or a V register of an
idle context (2048 + 64 x + n) (R58). -/
def Core.locFree (k : Core) (l : Nat) : Bool :=
  (if l < 2048 then (k.acc.get (l / 256) {}).claim.isNone else !(k.ctx ((l - 2048) / 64)).busy) &&
    !(k.spills.any fun e => e.loc = l)

/-- The lowest free location in the order of R58. -/
def Core.freeLoc (k : Core) : Option Nat := (List.range 2304).find? k.locFree

/-- The spilled register of SPILL and UNSPILL, resolved (R59). -/
def State.spillDest (s : State) (file n : Nat) : Dest := if file = 0 then s.dg n else s.dv n

def execSpill (t : Tri) (s : State) : Out :=
  .next (s.issue { slot := t.slot, pred := t.pred, srcs := [if t.b = 0 then .g t.a t.ba else .v t.a t.ba],
                   dests := [s.dp t.d] } fun s =>
    match (if s.fcore.spills.length < 64 then s.fcore.freeLoc else none) with
    | none => s.result 1 (s.dp t.d) 0 false 0
    | some loc =>
      let d := s.spillDest t.b t.a
      let v : Vec := if t.b = 0 then wide (s.g t.a).val else (s.v t.a).val
      let p := if t.b = 0 then (s.g t.a).poison else (s.v t.a).poison
      (s.onFc fun k => { (k.onCtx s.fx fun c => c.empty d) with
          spills := k.spills ++ [{ ctx := s.fx, dest := d, loc, val := v, poison := p }] }).result 1 (s.dp t.d) 1 false 0)

def execUnspill (t : Tri) (s : State) : Out :=
  .next (s.issue { slot := t.slot, pred := t.pred, srcs := [], dests := [s.spillDest t.b t.d] } fun s =>
    let d := s.spillDest t.b t.d
    match s.fcore.spills.find? fun e => e.ctx = s.fx && e.dest = d with
    | none => s
    | some e => (s.onFc fun k => k.unspilled s.fx d).result 4 d e.val e.poison 0)

end Sys2Proof.Machine
end

