-- ==== Sys2Proof/Machine/Vector.lean ====
section
/-! DEFINITION. Meanings of the vector map (R278-R297): lane arithmetic, shifts, saturation, width changes, compares,
lane movement, reductions, special functions, mask logic. -/

namespace Sys2Proof.Machine

/-- The mask of a vector operation: K0, or the K register its extension names (R279). -/
def State.maskOf (s : State) (t : Tri) : BitVec 256 := s.k (t.ext.getD 0 % 8)

def vA (t : Tri) : Src := .v t.a t.ba
def vB (t : Tri) : Src := .v t.b t.bb
/-- Vd read as an extra source, which waits (R209, R279). -/
def vD (t : Tri) : Src := .v t.d true

/-- The value of a V source. -/
def State.vVal (s : State) (n : Nat) : Vec := (s.v n).val

/-- A lane result and whether it saturated. -/
abbrev LaneRes := Int × Bool

def plain (x : Int) : LaneRes := (x, false)
/-- sat(x, W) with its event (R280). -/
def satLane (W : Nat) (x : Int) : LaneRes := (sat x W, sat x W ≠ x)

/-- The lanes of Vd after an operation: an inactive lane keeps its value and counts nothing (R279). -/
def lanesOut (bits : Nat) (mask : BitVec 256) (old : Vec) (f : Nat → Int → LaneRes) : List LaneRes :=
  (List.range (2048 / bits)).map fun m => if active bits mask m then f m (lane bits old m) else plain (lane bits old m)

/-- A vector operation with result lanes of `bits` at latency L; `readD` says Vd is always read. -/
def State.vop (s : State) (t : Tri) (L bits : Nat) (srcs : List Src) (readD : Bool)
    (f : State → Nat → Int → LaneRes) : State :=
  let mask := s.maskOf t
  let srcs := if readD || !((List.range (2048 / bits)).all (active bits mask)) then srcs ++ [vD t] else srcs
  s.issue { slot := t.slot, pred := t.pred, srcs, dests := [s.dv t.d] } fun s =>
    let p := s.anyPoison srcs
    let out := lanesOut bits mask (s.vVal t.d) (f s)
    s.result L (s.dv t.d) (ofLanes bits (out.map (·.1))) p (if p then 0 else (out.filter (·.2)).length)

/-- A lane operation on Va and Vb at width w. -/
def State.vop2 (s : State) (w : Width) (t : Tri) (L : Nat) (f : Nat → Int → Int → LaneRes) : State :=
  s.vop t L (wBits w) [vA t, vB t] false fun s m _ =>
    f (wBits w) (lane (wBits w) (s.vVal t.a) m) (lane (wBits w) (s.vVal t.b) m)

/-- A lane operation on Va at width w. -/
def State.vop1 (s : State) (w : Width) (t : Tri) (L : Nat) (f : Nat → Int → LaneRes) : State :=
  s.vop t L (wBits w) [vA t] false fun s m _ => f (wBits w) (lane (wBits w) (s.vVal t.a) m)

/-- A bitwise operation on lanes read as W bits. -/
def bitsOp (f : Nat → Nat → Nat) (W : Nat) (a b : Int) : LaneRes := plain (f (zx a W) (zx b W))

/-! ## Lane arithmetic and logic (R282) -/

def execVadd (w : Width) (t : Tri) (s : State) : Out := .next (s.vop2 w t 2 fun _ a b => plain (a + b))
def execVsub (w : Width) (t : Tri) (s : State) : Out := .next (s.vop2 w t 2 fun _ a b => plain (a - b))
def execVadds (w : Width) (t : Tri) (s : State) : Out := .next (s.vop2 w t 2 fun W a b => satLane W (a + b))
def execVsubs (w : Width) (t : Tri) (s : State) : Out := .next (s.vop2 w t 2 fun W a b => satLane W (a - b))
def execVmul (w : Width) (t : Tri) (s : State) : Out := .next (s.vop2 w t 4 fun _ a b => plain (a * b))
def execVmulh (w : Width) (t : Tri) (s : State) : Out := .next (s.vop2 w t 4 fun W a b => plain (a * b / 2 ^ W))

def execVmulsh (w : Width) (t : Tri) (s : State) : Out :=
  .next (s.vop t 4 (wBits w) [vA t, srcB t] false fun s m _ =>
    satLane (wBits w) (shiftdown (lane (wBits w) (s.vVal t.a) m * (s.g t.b).val.toInt) 16 1 0 0))

def execVmac (w : Width) (t : Tri) (s : State) : Out :=
  .next (s.vop t 4 (wBits w) [vA t, vB t] true fun s m d =>
    satLane (wBits w) (d + lane (wBits w) (s.vVal t.a) m * lane (wBits w) (s.vVal t.b) m))

def execVmin (w : Width) (t : Tri) (s : State) : Out := .next (s.vop2 w t 2 fun _ a b => plain (min a b))
def execVmax (w : Width) (t : Tri) (s : State) : Out := .next (s.vop2 w t 2 fun _ a b => plain (max a b))
def execVabs (w : Width) (t : Tri) (s : State) : Out := .next (s.vop1 w t 2 fun W a => satLane W (if a < 0 then -a else a))
def execVneg (w : Width) (t : Tri) (s : State) : Out := .next (s.vop1 w t 2 fun W a => satLane W (-a))
def execVand (w : Width) (t : Tri) (s : State) : Out := .next (s.vop2 w t 2 (bitsOp (· &&& ·)))
def execVor (w : Width) (t : Tri) (s : State) : Out := .next (s.vop2 w t 2 (bitsOp (· ||| ·)))
def execVxor (w : Width) (t : Tri) (s : State) : Out := .next (s.vop2 w t 2 (bitsOp (· ^^^ ·)))
def execVnot (w : Width) (t : Tri) (s : State) : Out := .next (s.vop1 w t 2 fun _ a => plain (-a - 1))

/-! ## Shifts and saturation (R283-R285) -/

def execVshl (w : Width) (t : Tri) (s : State) : Out :=
  .next (s.vop2 w t 2 fun W a b => plain (if zx b W ≥ W then 0 else a * 2 ^ zx b W))
def execVshr (w : Width) (t : Tri) (s : State) : Out :=
  .next (s.vop2 w t 2 fun W a b => plain (if zx b W ≥ W then 0 else (zx a W / 2 ^ zx b W : Nat)))
def execVsar (w : Width) (t : Tri) (s : State) : Out :=
  .next (s.vop2 w t 2 fun W a b => plain (a / 2 ^ min (zx b W) (W - 1)))
def execVshrn (w : Width) (t : Tri) (s : State) : Out :=
  .next (s.vop2 w t 2 fun W a b => plain (shiftdown a (min (zx b W) 64) 1 0 0))

/-- VSHRS draws one word for each lane at RNGCTR as the bundle's earlier draws left it (R284). -/
def execVshrs (w : Width) (t : Tri) (s : State) : Out :=
  let W := wBits w
  let ctr := s.cur.rngctr
  let mask := s.maskOf t
  let srcs := if (List.range (wCount w)).all (active W mask) then [vA t, vB t] else [vA t, vB t, vD t]
  .next (s.issue { slot := t.slot, pred := t.pred, srcs, dests := [s.dv t.d] } fun s =>
    let out := lanesOut W mask (s.vVal t.d) fun m _ =>
      let r := mix s.old.rngkey (ctr + BitVec.ofNat 64 m) s.old.rngstep
      plain (shiftdown (lane W (s.vVal t.a) m) (min (zx (lane W (s.vVal t.b) m) W) 64) 2 r.toNat 64)
    (s.result 2 (s.dv t.d) (ofLanes W (out.map (·.1))) (s.anyPoison srcs) 0).onCur fun k =>
      { k with rngctr := ctr + BitVec.ofNat 64 (wCount w) })

def execVsat (w : Width) (t : Tri) (s : State) : Out :=
  .next (s.vop1 w t 2 fun _ a => let y := satTo (t.b + 1) t.bb a; (y, y ≠ a))

/-! ## Width changes (R286) -/

def execVwid (w : Width) (t : Tri) (s : State) : Out :=
  .next (s.vop t 3 (2 * wBits w) [vA t] false fun s m _ =>
    let a := lane (wBits w) (s.vVal t.a) (t.b * (wCount w / 2) + m)
    plain (if t.bb then (zx a (wBits w) : Nat) else a))

def execVpack (w : Width) (t : Tri) (s : State) : Out :=
  .next (s.vop t 3 (wBits w) [vA t, vB t] false fun s m _ =>
    let h := wCount w / 2
    satLane (wBits w) (if m < h then lane (2 * wBits w) (s.vVal t.a) m else lane (2 * wBits w) (s.vVal t.b) (m - h)))

/-! ## Compare and select (R287, R288) -/

/-- The relation of a condition code on lanes (R287). -/
def laneCond (cc : Cond) (W : Nat) (a b : Int) : Bool :=
  match cc with
  | .eq => a = b
  | .ne => a ≠ b
  | .lt => a < b
  | .ge => a ≥ b
  | .ltn => zx a W < zx b W
  | .gen => zx a W ≥ zx b W

/-- K with each active group set to its lane's relation. -/
def maskOut (bits : Nat) (mask old : BitVec 256) (f : Nat → Bool) : BitVec 256 :=
  BitVec.ofNat 256 (((List.range 256).map fun i =>
    let m := i / (bits / 8)
    if (if active bits mask m then f m else old.getLsbD i) then 2 ^ i else 0).sum)

def execVcmp (cc : Cond) (w : Width) (t : Tri) (s : State) : Out :=
  .next (s.issue { slot := t.slot, pred := t.pred, srcs := [vA t, vB t], dests := [.k t.d], eats := [vA t, vB t] } fun s =>
    let W := wBits w
    let r := maskOut W (s.maskOf t) (s.k t.d) fun m => laneCond cc W (lane W (s.vVal t.a) m) (lane W (s.vVal t.b) m)
    s.result 2 (.k t.d) (r.setWidth 2048) false 0)

/-- A whole register written, its lanes all active. -/
def State.vwhole (s : State) (t : Tri) (L bits : Nat) (srcs : List Src) (f : State → List Int × Nat) : State :=
  s.issue { slot := t.slot, pred := t.pred, srcs, dests := [s.dv t.d] } fun s =>
    let p := s.anyPoison srcs
    let r := f s
    s.result L (s.dv t.d) (ofLanes bits r.1) p (if p then 0 else r.2)

def execVsel (w : Width) (t : Tri) (s : State) : Out :=
  .next (s.vwhole t 2 (wBits w) [vA t, vB t] fun s =>
    let W := wBits w
    ((List.range (wCount w)).map fun m =>
      if active W (s.maskOf t) m then lane W (s.vVal t.a) m else lane W (s.vVal t.b) m, 0))

/-! ## Lane movement (R289, R290) -/

def execVbcast (w : Width) (t : Tri) (s : State) : Out :=
  .next (s.vop t 2 (wBits w) [srcA t] false fun s _ _ => plain (s.valA t).toInt)

def execVperm (w : Width) (t : Tri) (s : State) : Out :=
  .next (s.vop t 3 (wBits w) [vA t, vB t] false fun s m _ =>
    plain (lane (wBits w) (s.vVal t.a) (laneBits (wBits w) (s.vVal t.b) m % wCount w)))

/-- The source lane of a VSHUF code. -/
def shufLane (code n m : Nat) : Nat :=
  match code with
  | 0 => if m < n / 2 then 2 * m else 2 * (m - n / 2) + 1
  | 1 => if m % 2 = 0 then m / 2 else (m - 1) / 2 + n / 2
  | 2 => n - 1 - m
  | _ => m ^^^ 1

def execVshuf (w : Width) (t : Tri) (s : State) : Out :=
  .next (s.vop t 3 (wBits w) [vA t] false fun s m _ =>
    plain (lane (wBits w) (s.vVal t.a) (shufLane t.b (wCount w) m)))

def execVrot (w : Width) (t : Tri) (s : State) : Out :=
  .next (s.vop t 3 (wBits w) [vA t, srcB t] false fun s m _ =>
    plain (lane (wBits w) (s.vVal t.a) ((m + (s.g t.b).val.toNat % wCount w) % wCount w)))

def execVmovg (w : Width) (t : Tri) (s : State) : Out :=
  .next (s.scalar t.slot t.pred 2 t.d [vA t, srcB t] fun s =>
    (wd (lane (wBits w) (s.vVal t.a) ((s.g t.b).val.toNat % wCount w)), 0))

def execVins (w : Width) (t : Tri) (s : State) : Out :=
  .next (s.vwhole t 2 (wBits w) [srcA t, srcB t, vD t] fun s =>
    let i := (s.g t.b).val.toNat % wCount w
    ((lanes (wBits w) (s.vVal t.d)).set i (s.valA t).toInt, 0))

/-! ## Reductions (R106, R291, R292) -/

/-- A value in every i64 lane. -/
def all64 (x : Int) : List Int := List.replicate 32 x

/-- The active lanes of Va. -/
def State.activeLanes (s : State) (w : Width) (t : Tri) : List Int :=
  ((List.range (wCount w)).filter (active (wBits w) (s.maskOf t))).map (lane (wBits w) (s.vVal t.a))

/-- The tree of R106 is exact at every node, so its root is the fold of the active lanes. -/
def State.vred (s : State) (w : Width) (t : Tri) (f : Int → Int → Int) (e : Int) : State :=
  s.vwhole t 5 64 [vA t] fun s =>
    let r := (s.activeLanes w t).foldl f e
    (all64 (sat r 64), if sat r 64 = r then 0 else 1)

def execVredadd (w : Width) (t : Tri) (s : State) : Out := .next (s.vred w t (· + ·) 0)
def execVredmax (w : Width) (t : Tri) (s : State) : Out := .next (s.vred w t max (-(2 ^ 63)))
def execVredmin (w : Width) (t : Tri) (s : State) : Out := .next (s.vred w t min (2 ^ 63 - 1))

def execVcensus (w : Width) (t : Tri) (s : State) : Out :=
  .next (s.vwhole t 4 64 [vA t] fun s =>
    (all64 ((s.activeLanes w t).foldl (fun c a => min c (rsbS a (wBits w))) (wBits w)), 0))

/-! ## Special functions (R293-R296) -/

/-- VEXP2 of one lane in Q15.16 (R293). -/
def exp2Lane (a : Int) : LaneRes :=
  let x := min a 0
  let n := x / 2 ^ 16
  let f := x % 2 ^ 16
  let m : Int := 32768 + f * (21513 + f * 11255 / 2 ^ 16) / 2 ^ 16
  (if -n ≥ 31 then 0 else m / 2 ^ (-n).toNat, a > 0)

def execVexp2 (_ : Width) (t : Tri) (s : State) : Out :=
  .next (s.vop t 6 32 [vA t] false fun s m _ => exp2Lane (lane 32 (s.vVal t.a) m))

def execVlut (w : Width) (t : Tri) (s : State) : Out :=
  let srcs := if w = .i8 then [vA t, vB t] else [vA t, vB t, .v (t.b + 1) true]
  .next (s.vop t 3 (wBits w) srcs false fun s m _ =>
    let i := laneBits (wBits w) (s.vVal t.a) m % 256
    plain (if w = .i8 then lane 8 (s.vVal t.b) i
      else if i < 128 then lane 16 (s.vVal t.b) i else lane 16 (s.vVal (t.b + 1)) (i - 128)))

def execVhad (w : Width) (t : Tri) (s : State) : Out :=
  let n := if t.b = 0 then 16 else 32
  .next (s.vop t 4 (wBits w) [vA t] false fun s m _ =>
    let g := m / n * n
    let y := ((List.range n).map fun j => hadSign (m - g) j * lane (wBits w) (s.vVal t.a) (g + j)).sum
    satLane (wBits w) y)

/-- A codebook entry of a context: the latched table, or the default one (R108, R110). -/
def Ctx.codebook (k : Ctx) (latched : Bool) (e : Nat) : CbEntry :=
  if latched then k.cbTable.getD e (0, true) else (vqTable.getD e 0, false)

/-- The entry of a VQ2 index. -/
def vqEntry (idx : Nat) : Nat := fld idx 8 8

def execVcbdec (w : Width) (t : Tri) (s : State) : Out :=
  let n := wCount w / 8
  let blk (s : State) (i : Nat) : Nat := fld (s.g t.b).val.toNat (8 * (i / 4)) 8
  let entry (s : State) (i : Nat) : CbEntry := s.old.codebook s.old.cbV (vqEntry (laneBits 16 (s.vVal t.a) i))
  let srcs := [vA t, srcB t]
  let mask := s.maskOf t
  let srcs := if (List.range (wCount w)).all (active (wBits w) mask) then srcs else srcs ++ [vD t]
  .next (s.issue { slot := t.slot, pred := t.pred, srcs, dests := [s.dv t.d] } fun s =>
    let bad := (List.range n).any fun i => !blkLegal (blk s i) || (entry s i).2
    let out := lanesOut (wBits w) mask (s.vVal t.d) fun m _ =>
      plain (vqWeight (entry s (m / 8)).1 (laneBits 16 (s.vVal t.a) (m / 8)) (m % 8) * 2 ^ (blk s (m / 8) % 8))
    s.result 3 (s.dv t.d) (ofLanes (wBits w) (out.map (·.1))) (s.anyPoison srcs || bad) 0)

/-! ## Counting and mask logic (R297) -/

def execVclz (w : Width) (t : Tri) (s : State) : Out := .next (s.vop1 w t 2 fun W a => plain (clz (zx a W) W : Nat))

def execViota (w : Width) (t : Tri) (s : State) : Out :=
  .next (s.vop t 2 (wBits w) [] false fun s m _ =>
    plain (((List.range m).filter (active (wBits w) (s.maskOf t))).length : Nat))

/-- A K operation: it reads no bit that could be empty. -/
def State.kop (s : State) (t : Tri) (f : BitVec 256 → BitVec 256 → BitVec 256) : State :=
  s.issue { slot := t.slot, pred := t.pred, srcs := [], dests := [.k t.d] } fun s =>
    s.result 1 (.k t.d) ((f (s.k t.a) (s.k t.b)).setWidth 2048) false 0

def execKand (t : Tri) (s : State) : Out := .next (s.kop t (· &&& ·))
def execKor (t : Tri) (s : State) : Out := .next (s.kop t (· ||| ·))
def execKnot (t : Tri) (s : State) : Out := .next (s.kop t fun a _ => ~~~a)

end Sys2Proof.Machine
end

