-- ==== Sys2Proof/Machine/Stream.lean ====
section
/-! DEFINITION. Timelines of engines (R132), stream registers (R300-R303): feeding, taking, pushing, writing out; what
the end of a task frees (R165, R300, R309). -/

namespace Sys2Proof.Machine

/-! ## Timelines (R132) -/

def Core.chan (k : Core) (n : Nat) : Timeline := k.ch.get n {}
def Core.wpc (k : Core) (n : Nat) : Timeline := k.wp.get n {}

/-- The counter after numbers beyond it have finished. -/
def doneAfter (done : Nat) (fin : List Nat) : Nat → Nat
  | 0 => done
  | f + 1 => if fin.contains (done + 1) then doneAfter (done + 1) fin f else done

/-- Number `n` has completed, poisoned or not. -/
def Timeline.finish (t : Timeline) (n : Nat) (poison : Bool) : Timeline :=
  let fin := t.fin ++ [n]
  let d := doneAfter t.done fin fin.length
  { t with done := d, fin := fin.filter (d < ·), bad := if poison then t.bad ++ [n] else t.bad
           queue := t.queue.filter fun i => i.num ≠ n }

/-- The timeline of an engine context of a core. -/
def State.tl (s : State) (c : Nat) (e : Engine) : Timeline :=
  match e with
  | .ch n => (s.core c).chan n
  | .mx => (s.core c).mxT
  | .grid => (s.core c).grid
  | .wp n => (s.core c).wpc n
  | .coll => s.coll

def State.setTl (s : State) (c : Nat) (e : Engine) (t : Timeline) : State :=
  match e with
  | .ch n => s.onCore c fun k => { k with ch := k.ch.set n t }
  | .mx => s.onCore c fun k => { k with mxT := t }
  | .grid => s.onCore c fun k => { k with grid := t }
  | .wp n => s.onCore c fun k => { k with wp := k.wp.set n t }
  | .coll => { s with coll := t }

def State.onTl (s : State) (c : Nat) (e : Engine) (f : Timeline → Timeline) : State := s.setTl c e (f (s.tl c e))

/-- The issue order of the task a context holds: what tells it from the context's other tasks. -/
def Ctx.taskId (k : Ctx) : Nat := (k.task.map (·.order)).getD 0

/-- Whether the task that issued a command still holds its context. -/
def State.sameTask (s : State) (c x task : Nat) : Bool := (s.ctx c x).task.any fun t => t.order = task

/-- A numbered command of the context in focus joins its engine's queue (R132); `after` is the place in issue order. -/
def State.command (s : State) (e : Engine) (cmd : EngCmd) : State :=
  let k := s.cur
  let s1 := s.onTl s.fc e fun t =>
    { t with issued := t.issued + 1
             queue := t.queue ++ [{ num := t.issued + 1, after := s.nextId, core := s.fc, ctx := s.fx, task := k.taskId,
                                    asid := (k.task.map (·.asid)).getD 0, key := s.old.rngkey, rstep := s.old.rngstep,
                                    cmd }] }
  { s1 with nextId := s.nextId + 1 }

/-- The number the next command of an engine receives. -/
def State.nextNum (s : State) (e : Engine) : Nat := (s.tl s.fc e).issued + 1

/-- Whether the accesses a context issued before a command have been executed (R133). -/
def State.before? (s : State) (c x after : Nat) : Bool :=
  !(s.net.any fun r => r.agent = .ctx c x && r.id < after && !r.ret.owned) &&
    !(s.parked.any fun p => p.req.agent = .ctx c x && p.req.id < after && !p.req.ret.owned)

/-- Updates of one descriptor apply in issue order (R99). -/
def State.descFirst (s : State) (c x dn upd : Nat) : Bool :=
  !((s.ctx c x).descPend.any fun p => p.1 = dn && p.2 < upd)

/-! ## Streams -/

def State.strm (s : State) (c x q : Nat) : Stream := (s.ctx c x).qAt q
def State.setStrm (s : State) (c x q : Nat) (st : Stream) : State :=
  s.onCtx c x fun k => { k with q := k.q.set q st }

/-- Element width of the buffer (R300). -/
def Stream.width (st : Stream) : Nat := if dFmt st.desc = 9 then 8 else fmtWidth (dFmt st.desc)
/-- Elements the buffer holds. -/
def Stream.cap (st : Stream) : Nat := 131072 / st.width
def Stream.room (st : Stream) : Nat := st.cap - st.buf.length
/-- Elements one arrival appends (R301). -/
def Stream.per (st : Stream) : Nat :=
  match st.pat with
  | some p => p.fields.length
  | none => if dFmt st.desc = 9 then 8 else 1
/-- The elements of the whole stream: a pattern is read in whole periods (R301, log entry 21). -/
def Stream.total (st : Stream) : Nat :=
  let n := dCount st.desc
  match st.pat with
  | some p => if st.write then n else n / max 1 p.fields.length * p.fields.length
  | none => if dFmt st.desc = 9 then 8 * n else n

/-- An access that a channel makes for a stream. -/
def chanAcc (c ch asid : Nat) (kind : AccKind) : Acc := { agent := .engine c (.ch ch), kind, asid }

/-- Bytes of element `j` of a descriptor. -/
def descParts (d : BitVec 1024) (j : Nat) : List (Nat × Nat × ETy) :=
  let w := fmtWidth (dFmt d)
  parts (elemAddr (dBase d) (dLin d j) w) (max 1 (w / 8)) .raw

/-- The value of element `j` of a descriptor from its bytes. -/
def descValue (d : BitVec 1024) (j : Nat) (bs : List (Byte × Bool)) : Elem :=
  let raw := gotNat bs
  (fmtRead (dFmt d) (if dFmt d = 0 then (if elemHi (dLin d j) 4 then raw / 16 else raw % 16) else raw), gotPoison bs)

def plainParts (ps : List (Nat × Nat × ETy)) : List (Nat × Nat) := ps.map fun p => (p.1, p.2.1)

/-- The parts of what a stream reads next: a period, an index with its block byte, or an element. -/
def Stream.feedParts (st : Stream) : List (Nat × Nat × ETy) :=
  match st.pat with
  | some p => parts (dBase st.desc + st.next / max 1 p.fields.length * (p.period / 8)) (p.period / 8) .raw
  | none =>
    if dFmt st.desc = 9 then
      descParts st.desc (st.next / 8) ++ [(dSide st.desc + blockOf st.desc (st.next / 8), 1, .raw)]
    else descParts st.desc st.next

/-- Elements of one period of a pattern, with the changes by saturation (R113). -/
def periodElems (p : Pattern) (fmt bits : Nat) (poison : Bool) : List Elem × Nat :=
  let vs := patCut p.fields bits
  let ys := vs.map fun v => satTo (fmtWidth fmt) (fmtUnsigned fmt) v
  (ys.map fun y => (y, poison), ((vs.zip ys).filter fun q => q.1 ≠ q.2).length)

/-- The eight weights of a VQ2 index (R107-R110); `blk` is its block byte. -/
def vqElems (tab : Option (List CbEntry)) (idx blk : Nat) (poison : Bool) : List Elem :=
  let e : CbEntry := match tab with
    | some t => t.getD (vqEntry idx) (0, true)
    | none => (vqTable.getD (vqEntry idx) 0, false)
  let bad := poison || !blkLegal blk || e.2
  (List.range 8).map fun j => (vqWeight e.1 idx j * 2 ^ (blk % 8), bad)

/-- The elements that the bytes read for `feedParts` give, with the changes by saturation. -/
def Stream.fed (st : Stream) (bs : List (Byte × Bool)) : List Elem × Nat :=
  match st.pat with
  | some p => periodElems p (dFmt st.desc) (gotNat bs) (gotPoison bs)
  | none =>
    if dFmt st.desc = 9 then (vqElems st.table (gotNat (bs.take 2)) (gotNat (bs.drop 2)) (gotPoison bs), 0)
    else ([descValue st.desc st.next bs], 0)

/-- Appends fed elements. -/
def Stream.append (st : Stream) (es : List Elem) (sats : Nat) : Stream :=
  { st with buf := st.buf ++ es, next := st.next + es.length, pois := st.pois || es.any (·.2), sats := st.sats + sats }

/-- Whether a read stream still has something to read and room for it. -/
def Stream.hungry (st : Stream) : Bool :=
  st.bound && !st.write && st.feed = 0 && st.next < st.total && st.per ≤ st.room

/-- The queue item that feeds or drains the stream in register q of context x. -/
def State.strmItem (s : State) (c x q : Nat) : Option EngItem :=
  ((s.core c).chan (s.strm c x q).ch).queue.find? fun i =>
    i.ctx = x && (i.cmd = .streamRd q none || i.cmd = .streamWr q none)

/-- The tags of a queued command's reads and of its writes. -/
def EngItem.readTag (i : EngItem) : Nat := 2 * i.num
def EngItem.writeTag (i : EngItem) : Nat := 2 * i.num + 1

/-- Replaces a queued command. -/
def State.putItem (s : State) (c : Nat) (e : Engine) (i : EngItem) : State :=
  s.onTl c e fun t => { t with queue := t.queue.map fun j => if j.num = i.num then i else j }

/-! ## Earlier commands of the same engine context (R122) -/

/-- Elements that a command has still to read or to write, from number `lo` up to `hi`: the first bit of an element's place
and the bits there; all of them lie in the bits of `span`. -/
structure Run where
  lo : Nat
  hi : Nat
  at_ : Nat → Int × Int
  span : Int × Int

/-- A bit of an own scratchpad window as a bit of the cluster window (R45). -/
def clusterBit (core : Nat) (b : Int) : Int :=
  let own : Int := 8 * 0x00FF000000000000
  if own ≤ b ∧ b < own + 2 ^ 26 then b - own + 8 * (0x00FE000000000000 + core % 4 * 2 ^ 23 : Nat) else b

/-- A stretch of bits with its alias in the cluster window: what lies in the own window moves there, and a stretch that
leaves it counts as everything. -/
def clusterSpan (core : Nat) (lo hi : Int) : Int × Int :=
  let a := clusterBit core lo
  let b := clusterBit core (hi - 1)
  if a = lo ∧ b = hi - 1 ∨ b - a = hi - 1 - lo then (a, b + 1) else (-2 ^ 60, 2 ^ 60)

/-- Elements of a descriptor at a width (R94). -/
def descRun (core : Nat) (d : BitVec 1024) (w lo hi : Nat) : Run :=
  let b : Int := 8 * (dBase d : Int)
  let ends := (List.range (dNdim d + 1)).map fun j => ((dExt d j : Int) - 1) * dStr d j * w
  { lo, hi, at_ := fun j => (clusterBit core (b + dLin d j * w), (w : Int))
    span := clusterSpan core (b + (ends.map (min 0)).sum) (b + (ends.map (max 0)).sum + w) }

/-- The block bytes of a VQ2 descriptor's elements. -/
def sideRun (core : Nat) (d : BitVec 1024) (lo hi : Nat) : List Run :=
  if dFmt d = 9 then
    [{ lo, hi, at_ := fun j => (clusterBit core (8 * (dSide d + blockOf d j : Nat)), 8),
       span := clusterSpan core (8 * dSide d : Nat) (8 * (dSide d + dCount d) : Nat) }]
  else []

/-- Periods of a pattern. -/
def periodRun (core : Nat) (d : BitVec 1024) (period lo hi : Nat) : Run :=
  { lo, hi, at_ := fun k => (clusterBit core (8 * dBase d + k * period : Nat), (period : Int))
    span := clusterSpan core (8 * dBase d + lo * period : Nat) (8 * dBase d + hi * period : Nat) }

/-- The width at which the store path of the page at a descriptor's base writes its elements (R97). -/
def State.storedWidth (s : State) (a : Acc) (d : BitVec 1024) : Nat :=
  match s.leafOn a (dBase d) with
  | some e => if entConverts e then sfmtBits (entSfmt e) else fmtWidth (dFmt d)
  | none => fmtWidth (dFmt d)

/-- What a stream of `st` has still to touch from element `n` up to element `m`. -/
def State.strmRuns (s : State) (core : Nat) (st : Stream) (n m : Nat) : List Run :=
  let d := st.desc
  match st.pat with
  | some p =>
    let f := max 1 p.fields.length
    periodRun core d p.period (n / f) ((m + f - 1) / f) ::
      if st.write then [descRun core d (s.storedWidth (chanAcc core st.ch st.asid .copyWrite) d) n m] else []
  | none =>
    if st.write then [descRun core d (s.storedWidth (chanAcc core st.ch st.asid .copyWrite) d) n m]
    else
      let k := if dFmt d = 9 then 8 else 1
      descRun core d (fmtWidth (dFmt d)) (n / k) ((m + k - 1) / k) :: sideRun core d (n / 8) ((m + 7) / 8)

/-- What a queued command of a channel or a window context has still to read and to write. -/
def State.runsOf (s : State) (i : EngItem) : List Run × List Run :=
  let c := i.core
  let bytes (la len : Nat) : List Run :=
    [{ lo := 0, hi := 1, at_ := fun _ => (clusterBit c (8 * la : Nat), (8 * len : Nat)),
       span := clusterSpan c (8 * la : Nat) (8 * (la + len) : Nat) }]
  match i.cmd with
  | .copy dst src _ _ _ _ =>
    let n := dCount src
    (descRun c src (fmtWidth (dFmt src)) i.pos n :: sideRun c src i.pos n,
     [descRun c dst (s.storedWidth (chanAcc c 0 i.asid .copyWrite) dst) i.pos n])
  | .cpym _ src _ _ false => (descRun c src (fmtWidth (dFmt src)) 0 (dCount src) :: sideRun c src 0 (dCount src), [])
  | .streamRd q none => let st := s.strm c i.ctx q; (s.strmRuns c st st.next st.total, [])
  | .streamWr q own =>
    let st := own.getD (s.strm c i.ctx q)
    ([], s.strmRuns c st (st.next - st.buf.length) st.total)
  | .put la _ _ _ len false => (bytes la len, [])
  | .get la _ _ _ len _ => ([], bytes la len)
  | .got la bs => ([], bytes la bs.length)
  | _ => ([], [])

/-- What its next step touches: an element of a copy, what a stream reads next or has buffered, all of another command. -/
def State.nextRuns (s : State) (i : EngItem) : List Run × List Run :=
  let r := s.runsOf i
  let cut (n : Nat) (l : List Run) : List Run := l.map fun x => { x with hi := min x.hi (x.lo + n) }
  match i.cmd with
  | .copy _ _ _ _ _ _ => (cut 1 r.1, cut 1 r.2)
  | .streamRd _ none => (cut 1 r.1, [])
  | .streamWr q own =>
    let st := own.getD (s.strm i.core i.ctx q)
    ([], s.strmRuns i.core st (st.next - st.buf.length) st.next)
  | _ => r

/-- Whether two runs share a bit. -/
def Run.meets (x y : Run) : Bool :=
  x.span.1 < y.span.2 && y.span.1 < x.span.2 &&
  (List.range (x.hi - x.lo)).any fun i => (List.range (y.hi - y.lo)).any fun j =>
    let p := x.at_ (x.lo + i)
    let q := y.at_ (y.lo + j)
    p.1 < q.1 + q.2 && q.1 < p.1 + p.2

/-- Whether an earlier command `j` still has to touch what the next step of `i` touches, one of the two writing it. -/
def State.clash (s : State) (j i : EngItem) : Bool :=
  let a := s.runsOf j
  let b := s.nextRuns i
  let meets (x y : List Run) : Bool := x.any fun p => y.any p.meets
  meets a.2 b.1 || meets a.1 b.2 || meets a.2 b.2

/-- Whether a queued command waits for an earlier one of its engine context on a common location (R122). -/
def State.heldBack (s : State) (c : Nat) (e : Engine) (i : EngItem) : Bool :=
  ((s.tl c e).queue.takeWhile fun j => j.num ≠ i.num).any fun j => s.clash j i

/-- STREAM_ELEMENT_ARRIVAL: the feeder reads once and appends; none when it cannot now (R122, R301, R303). -/
def State.feed (s : State) (c x q : Nat) : Option State :=
  let st := s.strm c x q
  match s.strmItem c x q with
  | none => none
  | some i =>
    if st.hungry && s.before? c x i.after && !s.heldBack c (.ch st.ch) i then
      let a := chanAcc c st.ch st.asid .copyRead
      match s.askRead a i.readTag i.decl (plainParts st.feedParts) with
      | .still => none
      | .went s' => some s'
      | .got p decl s1 =>
        let r := st.fed p.data.flatten
        some ((s1.setStrm c x q (st.append r.1 r.2)).putItem c (.ch st.ch) { i with decl })
    else none

/-- Whether a read stream has ended: what is taken beyond reads 0, poisoned (R301). -/
def Stream.ended (st : Stream) : Bool := st.feed = 0 && st.next ≥ st.total

/-- Elements that can be taken now, out of `n`. -/
def Stream.avail (st : Stream) (n : Nat) : Nat := if st.ended then n else min n st.buf.length

/-- Takes `n` elements. -/
def Stream.take (st : Stream) (n : Nat) : List Elem × Stream :=
  (st.buf.take n ++ List.replicate (n - st.buf.length) (0, true), { st with buf := st.buf.drop n })

/-! ## Write streams (R302) -/

/-- The linear offset with the highest dimension's index allowed past its extent (R348). -/
def linPast (d : BitVec 1024) : List Nat → Nat → Int
  | [], _ => 0
  | [i], j => (j : Int) * dStr d i
  | i :: r, j => (j % max 1 (dExt d i) : Nat) * dStr d i + linPast d r (j / max 1 (dExt d i))

def dLinPast (d : BitVec 1024) (j : Nat) : Int := linPast d (List.range (dNdim d + 1)) j

/-- R97 step 2 on one element of a helper-fed write stream: the value and the changes by saturation. -/
def Stream.convert (st : Stream) (j : Nat) (x : Int) : Int × Nat :=
  let w := fmtWidth (dFmt st.desc)
  let lin := dLin st.desc j
  let r := elemRandom st.key st.rstep (elemAddr (dBase st.desc) lin w) (elemHi lin w)
  let y := shiftdown x st.shift st.mode r 32
  let v := satTo w (fmtUnsigned (dFmt st.desc)) y
  (v, if v = y then 0 else 1)

/-- Pushes elements to a write stream; beyond the extents of a channel-fed one they are discarded and the binding
context's declined-store flag is set (R302, R348). -/
def State.push (s : State) (c x q : Nat) (es : List Elem) : State :=
  let st := s.strm c x q
  if st.feed = 0 then
    let k := st.total - st.next
    let kept := es.take k
    let st1 := { st with buf := st.buf ++ kept, next := st.next + kept.length, pois := st.pois || kept.any (·.2),
                         excess := st.excess + (es.length - kept.length) }
    let s1 := s.setStrm c x q st1
    if k < es.length ∧ s.sameTask c x st.task then
      s1.onCtx c x fun cx => cx.declineStore st.upd
        (elemAddr (dBase st.desc) (dLinPast st.desc (st.total + st.excess)) (fmtWidth (dFmt st.desc)))
    else s1
  else
    let cs := es.zipIdx.map fun (e, i) => (st.convert (st.next + i) e.1, e.2)
    let st1 := { st with buf := st.buf ++ cs.map (fun p => (p.1.1, p.2)), next := st.next + es.length,
                         pois := st.pois || es.any (·.2) }
    let s1 := s.setStrm c x q st1
    if s.sameTask c x st.task then s1.onCtx c x fun cx => cx.count ((cs.map (·.1.2)).sum) else s1

/-- Whether a write stream may write its buffered elements: with a pattern whole periods, or the last ones. -/
def Stream.drainable (st : Stream) : Bool :=
  !st.buf.isEmpty &&
    match st.pat with
    | some p => p.fields.length ≤ st.buf.length || st.closing || st.next ≥ st.total
    | none => true

/-- The pieces that write out buffered elements, and the stream without them (R97, R113). -/
def Stream.drain (st : Stream) : List Piece × Stream :=
  let done := st.next - st.buf.length
  match st.pat with
  | some p =>
    let n := max 1 p.fields.length
    let k := if st.closing || st.next ≥ st.total then (st.buf.length + n - 1) / n else st.buf.length / n
    let fmt := dFmt st.desc
    ((List.range k).map fun i =>
      .packed (dBase st.desc + (done / n + i) * (p.period / 8)) p (dBase st.desc) (fmtWidth fmt) (fmtUnsigned fmt) st.shift
        st.mode (((st.buf.drop (i * n)).take n).zipIdx.map fun (e, j) => (dLin st.desc (done + i * n + j), e.1, e.2)),
     { st with buf := st.buf.drop (k * n) })
  | none =>
    let fmt := dFmt st.desc
    (st.buf.zipIdx.map fun p => .elem (dBase st.desc) (dLin st.desc (done + p.2)) p.1.1 (fmtWidth fmt) (fmtUnsigned fmt)
      false st.shift st.mode p.1.2, { st with buf := [] })

/-- What writing elements has done joins the stream (R98, R100, R33). -/
def Stream.wroteOut (st : Stream) (p : Prog) : Stream :=
  { st with sats := st.sats + p.sat, wrote := st.wrote + p.written, bad := st.bad || !p.declined.isEmpty
            cen := match p.census with | none => st.cen | some n => minOpt st.cen n }

/-! ## Who uses a stream (R300, R307) -/

/-- The follow-on command of a CPYM: a load or a run (R322). -/
def followOf (op ext : Nat) : Option Instr :=
  if fld op 20 4 ≠ 0 then none
  else match decodeSlot 5 op (if ext = 0 then none else some ext), decodeSlot 5 op (some ext) with
    | .ok (.mldn t), _ => some (.mldn t)
    | .ok (.mldw t), _ => some (.mldw t)
    | .ok (.mlds t), _ => some (.mlds t)
    | _, .ok (.mrun t) => some (.mrun t)
    | _, _ => none

/-- The streams that a CPYM follow-on names (R322). -/
def followQs (op ext : Nat) : List Nat :=
  match followOf op ext with
  | some (.mldn t) => [t.a]
  | some (.mldw t) => [t.a]
  | some (.mlds t) => [t.a, t.b]
  | some (.mrun t) => [t.a]
  | _ => []

/-- The stationary buffer that a CPYM follow-on loads. -/
def followBuf (op ext : Nat) : Option Nat :=
  match followOf op ext with
  | some (.mldn t) => some t.d
  | some (.mldw t) => some t.d
  | some (.mlds t) => some t.d
  | _ => none

/-- Whether an earlier matrix or copy command of the context still uses a stream. -/
def State.streamUsed (s : State) (c x q : Nat) : Bool :=
  let k := s.core c
  (k.mx.any fun m => m.ctx = x &&
      (m.needs.any (fun n => n.1 = q) ||
        match m.kind with
        | .drainQ _ _ _ q' _ => q' = q
        | .regrow _ a b _ => a = q || b = q
        | _ => false)) ||
    (k.ch.any fun t => t.2.queue.any fun i => i.ctx = x &&
      match i.cmd with
      | .cpym q' _ op ext _ => q' = q || (followQs op ext).contains q
      | _ => false)

/-- SFREE or END takes a stream out of its register: a channel-fed one stays with its item until it completes. -/
def State.release (s : State) (c x q : Nat) : State :=
  let st := s.strm c x q
  let give (t : Timeline) : Timeline :=
    { t with queue := t.queue.map fun i =>
        if i.ctx = x ∧ i.cmd = .streamRd q none then { i with cmd := .streamRd q (some { st with buf := [], closing := true }) }
        else if i.ctx = x ∧ i.cmd = .streamWr q none then { i with cmd := .streamWr q (some { st with closing := true }) }
        else i }
  let s1 := if st.bound && st.feed = 0 then s.onTl c (.ch st.ch) give else s
  s1.setStrm c x q { pat := if st.freed then st.nextPat else none }

/-- Releases the streams that a task which has ended left to its commands, once none uses them (R300). -/
def State.releaseFreed (s : State) (c : Nat) : State :=
  (s.core c).ctxs.foldl (fun s p =>
    p.2.q.foldl (fun s r => if r.2.freed && !s.streamUsed c p.1 r.1 then s.release c p.1 r.1 else s) s) s

/-! ## The end of a task (R165, R300, R309, R330, R344) -/

/-- Ends a program that serves a context that ends (R330). -/
def Helper.stopFor (h : Helper) (x : Nat) : Helper :=
  { h with running := h.running && h.ctx ≠ x, halted := h.halted && h.ctx ≠ x, owes := h.owes && h.ctx ≠ x
           starts := h.starts.filter fun r => r.ctx ≠ x }

/-- A core without a context's ACC claim, spill entries, stationary buffers and helper programs. -/
def Core.withoutTask (k : Core) (x : Nat) : Core :=
  { k with
    acc := k.acc.map fun p => (p.1, if p.2.claim = some x then { p.2 with claim := none } else p.2)
    spills := k.spills.filter fun e => e.ctx ≠ x
    bufs := k.bufs.map fun p => (p.1, if p.2.owner = some x then { p.2 with owner := none, ready := true, pois := false } else p.2)
    mx := k.mx.map fun m => match m.kind with
      | .load _ _ _ _ _ => if m.ctx = x then { m with kind := .dead } else m
      | _ => m
    loader := k.loader.stopFor x, storer := k.storer.stopFor x }

/-- The task-end record of R344. -/
def Task.endWords (t : Task) (c : Nat) (failed : Bool) : List Word :=
  [BitVec.ofNat 64 (if t.spawned then 2 ^ 63 + c % 20 * 2 ^ 32 + t.ticket % 2 ^ 32 else t.ticket), t.nodeId,
   BitVec.ofNat 64 failed.toNat, BitVec.ofNat 64 (if t.spawned then t.ncc else 0)]

/-- Frees a context: the claims it held, its streams (those a command still uses stay with the command), and the
task-end record to its die. -/
def State.freeCtx (s : State) (c x : Nat) (failed : Bool) : State :=
  match (s.ctx c x).task with
  | none => s.onCtx c x fun k => { k with status := .idle }
  | some t =>
    let s1 := (s.ctx c x).q.foldl (fun s p =>
      let s := s.setStrm c x p.1 { p.2 with nextPat := none }
      if p.2.bound && s.streamUsed c x p.1 then s.setStrm c x p.1 { p.2 with freed := true, nextPat := none } else s.release c x p.1) s
    let s2 := s1.onCore c fun k => (k.onCtx x fun q =>
      { q with status := .idle, task := none, sticky := [], target := none, redirect := none, regions := [], loss := 0
               descPend := [], stop := none, argWait := false }).withoutTask x
    let h := s.core c
    let s3 := if h.loader.running && h.loader.ctx = x then s2.forget (.loader c) else s2
    let s4 := if h.storer.running && h.storer.ctx = x then s3.forget (.storer c) else s3
    (s4.forget (.ctx c x)).postEvent (dieOf c) 1 (t.endWords c failed)

end Sys2Proof.Machine
end

