-- ==== Sys2Proof/Machine/Control.lean ====
section
/-! DEFINITION. Meanings of the control map (R265-R277): timeline waits, barriers, containment, traps, control registers,
events, yielding, the end of a task, the loss scale. -/

namespace Sys2Proof.Machine

/-! ## Timelines (R132, R265-R267) -/

/-- The timeline of a selector KIND with its engine; STAGE and windows have none. -/
def State.timeline (s : State) (c kind index : Nat) : Option (Engine × Timeline) :=
  match kind with
  | 0 => some (.ch index, (s.core c).chan index)
  | 1 => some (.mx, (s.core c).mxT)
  | 3 => some (.grid, (s.core c).grid)
  | 4 => some (.coll, s.coll)
  | 5 => some (.wp index, (s.core c).wpc index)
  | _ => none

/-- The value of a counter as core c observes it (R265). -/
def State.counter (s : State) (c kind index : Nat) : Nat :=
  match s.timeline c kind index with
  | some (_, t) => t.done
  | none => if kind = 2 then (s.core c).stage else (s.window index).count

/-- Poisoned numbers at or below n that the context has not been told of (R266). -/
def State.badNums (s : State) (c kind index n : Nat) (seen : List (Engine × Nat)) (seenW : List (Nat × Nat)) : List Nat :=
  match s.timeline c kind index with
  | some (e, t) => t.bad.filter fun m => m ≤ n && !seen.contains (e, m)
  | none => if kind = 6 then (s.window index).bad.filter fun m => m ≤ n && !seenW.contains (index, m) else []

/-- Marks poisoned numbers reported to the context in focus. -/
def State.report (s : State) (kind index : Nat) (ns : List Nat) : State :=
  match s.timeline s.fc kind index with
  | some (e, _) => s.onCur fun k => { k with reported := k.reported ++ ns.map fun n => (e, n) }
  | none => s.onCur fun k => { k with reportedWin := k.reportedWin ++ ns.map fun n => (index, n) }

/-- A window selector whose entry has V = 0 is illegal (R265). -/
def State.selBad (s : State) (sel : Nat) : Bool := selKind sel = 6 && !(s.window (selIndex sel)).v

/-- What an IMM operation with a G source in A needs. -/
def immNeed (t : ImmF) : Need :=
  { slot := t.slot, pred := t.pred, srcs := [.g t.a t.ba], dests := [], eats := [.g t.a t.ba] }

/-- An IMM operation without sources. -/
def immNone (t : ImmF) : Need := { slot := t.slot, pred := t.pred, srcs := [], dests := [] }

def noneNeed (t : NoneF) : Need := { slot := t.slot, pred := t.pred, srcs := [], dests := [] }

/-- A TRI operation that reads and consumes G sources. -/
def triNeed (t : Tri) (srcs : List Src) (dests : List Dest) : Need :=
  { slot := t.slot, pred := t.pred, srcs, dests, eats := srcs }

/-- WAITT tests its selector when it first comes to issue: a window deregistered later leaves it waiting (R266). -/
def execWaitt (t : ImmF) (s : State) : Out :=
  .next (s.issue (immNeed t) fun s =>
    let sel := WF.selOf t
    let n := (s.g t.a).val.toNat
    let (kind, index) := (selKind sel, selIndex sel)
    if s.selBad sel && s.old.status ≠ .waiting .waitt then s.illegal t.slot
    else if s.counter s.fc kind index < n then s.wait .waitt
    else s.eatDecl t.slot fun s =>
      match s.badNums s.fc kind index n s.cur.reported s.cur.reportedWin with
      | [] => s
      | b :: bs => (s.report kind index (b :: bs)).trap 5 (BitVec.ofNat 64 (2 ^ 63 + bs.foldl min b % 2 ^ 63)) t.slot)

def execReadt (t : ImmF) (s : State) : Out :=
  .next (s.issue { immNone t with dests := [s.dg t.d] } fun s =>
    let sel := WF.selOf t
    if s.selBad sel then s.illegal t.slot
    else s.result 2 (s.dg t.d) (BitVec.ofNat 2048 (s.counter s.fc (selKind sel) (selIndex sel) % 2 ^ 64)) false 0)

/-! ## Barriers (R171-R174, R268) -/

def execBara (t : LandF) (s : State) : Out :=
  .next (s.issue (landNeed t (s.dg t.d)) fun s =>
    let b := (s.g t.a).val.toNat
    let bar := s.barrier b
    if b ≥ 256 ∨ !bar.member s.fc then s.trap 7 (BitVec.ofNat 64 b) t.slot
    else if bar.arrived s.fc ≥ 2 then s.wait .other
    else
      let gen := (bar.gen + bar.arrived s.fc) % 2 ^ 64
      let bar' := { bar with arr := bar.arr.set s.fc (bar.arrived s.fc + 1), flying := bar.flying ++ [(s.fc, gen)] }
      let s1 := { s with barriers := s.barriers.set b bar' }.landKnown t.land (s.dg t.d) true (BitVec.ofNat 2048 gen) false
      s1.request .store [] (fun _ => .bar s.fc b gen) true none)

def execBarw (t : Tri) (s : State) : Out :=
  .next (s.issue (triNeed t [srcA t, srcB t] []) fun s =>
    let b := (s.valA t).toNat
    if b ≥ 256 then s.trap 7 (BitVec.ofNat 64 b) t.slot
    else if (s.barrier b).gen > (s.g t.b).val.toNat then s
    else s.wait .barw)

/-- Whether every access the context in focus has issued is executed: a read it waits for comes after them. -/
def State.quiet (s : State) : Bool :=
  !(s.net.any fun r => r.agent = s.focus && r.id < s.since && !r.ret.owned) &&
    !(s.parked.any fun p => p.req.agent = s.focus && p.req.id < s.since && !p.req.ret.owned)

/-- A read of n bytes that the context waits for, ordered after its earlier accesses (R174, R306, R320). -/
def State.readWait (s : State) (va n : Nat) (need : Option Nat) (go : List (Byte × Bool) → State → State) : State :=
  if !s.quiet then s.wait .other
  else match s.readNow { agent := s.focus, kind := .load, asid := s.old.asid, need } va n with
    | .blocked s' => s'.wait .other
    | .ready bs => go bs s

/-- BARM. A member with ARR > 0 gives barrier misuse also when the read is declined or poisoned: R174 gives no order of the
two (DESIGN CHOICE, log entry 64). -/
def execBarm (t : Tri) (s : State) : Out :=
  .next (s.issue (triNeed t [srcA t, srcB t] []) fun s =>
    let b := (s.valA t).toNat
    if b ≥ 256 then s.trap 7 (BitVec.ofNat 64 b) t.slot
    else s.readWait (s.g t.b).val.toNat 80 none fun bs s =>
      let bar := s.barrier b
      if bar.arr.any fun p => 0 < p.2 then s.trap 7 (BitVec.ofNat 64 b) t.slot
      else if gotPoison bs then s.trap 5 (BitVec.ofNat 64 s.cur.declFirst) t.slot
      else { s with barriers := s.barriers.set b { bar with mask := BitVec.ofNat 640 (gotNat bs) } })

/-! ## Containment and traps (R269, R270, R350) -/

def execCropen (t : ImmF) (s : State) : Out :=
  .next (s.issue (immNone t) fun s =>
    if s.old.regions.length ≥ 4 then s.illegal t.slot
    else s.onCur fun k => { k with regions := k.regions ++
      [{ handler := s.target t.imm, id := t.d, hdepth := k.trap.hdepth, since := s.nextId }] })

/-- Whether a request is a store or an atomic to memory: releases of events, STAGE and barriers touch none. -/
def Req.stores (r : Req) : Bool := r.kind ≠ .load && !r.pieces.isEmpty && !r.ret.owned

/-- Whether every store and atomic since a request number has been executed or declined (R269). -/
def State.storesDone (s : State) (since : Nat) : Bool :=
  let open? (r : Req) : Bool := r.agent = s.focus && since ≤ r.id && r.id < s.since && r.stores
  !(s.net.any open?) && !(s.parked.any fun p => open? p.req)

def execCrclose (t : NoneF) (s : State) : Out :=
  .next (s.issue (noneNeed t) fun s =>
    match s.old.regions.getLast? with
    | none => s.illegal t.slot
    | some r =>
      if s.storesDone r.since then s.onCur fun k => { k with regions := k.regions.dropLast } else s.wait .other)

def execTrap (t : ImmF) (s : State) : Out := .next (s.issue (immNone t) fun s => s.trap 9 (wd t.imm) t.slot)

def execTrack (t : NoneF) (s : State) : Out :=
  .next (s.issue (noneNeed t) fun s => s.onCur fun k => { k with trap := { k.trap with crit := false } })

/-- TRET is illegal at HDEPTH 0 and in a shadow bundle; it acts at the end of its bundle (R350). -/
def execTret (t : NoneF) (s : State) : Out :=
  .next (s.issue (noneNeed t) fun s =>
    if s.old.trap.hdepth = 0 ∨ s.old.target.isSome then s.illegal t.slot
    else s.onCur fun k => { k.trapReturn with redirect := some .ret })

/-! ## Control registers (R212, R271) -/

def bn (b : Bool) (i : Nat) : Nat := b.toNat * 2 ^ i

/-- CRDEPTH's layout (R348). -/
def crdepth (k : Ctx) : Nat :=
  k.regions.length + bn k.trap.crit 8 + k.trap.hdepth * 2 ^ 9 +
    ((k.regions.zipIdx).map fun (r, j) => r.id * 2 ^ (16 + 6 * j)).sum

/-- The merge rank of a context among those that hold tasks (R161). -/
def Core.rank (k : Core) (x : Nat) : Nat :=
  match (k.ctx x).task with
  | none => 0
  | some t => ([0, 1, 2, 3].filter fun y => (k.ctx y).task.any fun u => u.order < t.order).length

/-- The physical core that serves a logical core (R361). -/
def State.phys (s : State) (c : Nat) : Nat :=
  (((s.die (dieOf c)).lp.get (c % 20 / 4) {}).l.getD (c % 4) 0)

/-- The value of a control register: context registers from `k`, core registers as they stand. -/
def State.csr (s : State) (k : Ctx) (sel : Nat) : Nat :=
  match sel with
  | 0x00 => bn k.trap.vecEn 0 + k.trap.vecAddr * 4
  | 0x01 => k.trap.pc % 2 ^ 56 / 4 * 4
  | 0x02 => k.trap.code + bn k.trap.unw 5
  | 0x03 => k.trap.addr.toNat
  | 0x04 => k.trap.slot + bn k.trap.shadow 3 + k.trap.issue * 2 ^ 4 + k.trap.target % 2 ^ 54 * 2 ^ 10
  | 0x05 => k.trap.pc2 % 2 ^ 56
  | 0x06 => k.trap.code2
  | 0x07 => crdepth k
  | 0x08 => bn k.decl 0 + k.declFirst * 2 ^ 8
  | 0x10 => k.rngkey.toNat
  | 0x11 => k.rngctr.toNat
  | 0x12 => k.rngstep.toNat
  | 0x18 => bn k.sat 0
  | 0x19 => k.satcnt.toNat
  | 0x1A => bn k.sperr 0
  | 0x1B => k.sperrcnt.toNat
  | 0x20 => k.ls.e.toNat
  | 0x21 => k.ls.min.toNat
  | 0x22 => k.ls.max.toNat
  | 0x23 => k.ls.cnt.toNat
  | 0x24 => k.ls.int.toNat
  | 0x25 => k.ls.floor.toNat
  | 0x26 => bn k.ls.fte 0
  | 0x28 => s.fcore.dslots
  | 0x29 => bn k.cbV 0 + k.cbAddr * 2 ^ 9
  | 0x30 => s.fc % 4 + s.fc / 4 * 4
  | 0x31 => s.phys s.fc + s.fc % 20 / 4 * 8 + dieOf s.fc * 64
  | 0x32 => s.fx + s.fcore.rank s.fx * 4
  | 0x38 => s.fcore.stage
  | 0x39 => k.cpatSteps.toNat + k.cpatLen * 2 ^ 32
  | 0x40 => k.gb + k.vb * 2 ^ 8 + k.pb * 2 ^ 16
  | 0x41 => k.loop.count
  | 0x42 => k.loop.sm1 + bn k.loop.act 3 + bn k.loop.x 4 + bn k.loop.exited 5
  | 0x48 => s.fcore.cycle % 2 ^ 64
  | 0x49 => s.fcore.frzcnt % 2 ^ 64
  | _ => 0

/-- RW bits and W1C bits of a register (R9, R271). -/
def csrBits : Nat → Nat × Nat
  | 0x00 => (2 ^ 56 - 4 + 1, 0)
  | 0x01 => (2 ^ 56 - 4, 0)
  | 0x02 => (63, 0)
  | 0x03 => (2 ^ 64 - 1, 0)
  | 0x04 => (2 ^ 64 - 1, 0)
  | 0x08 => (0, 1)
  | 0x10 => (2 ^ 64 - 1, 0)
  | 0x11 => (2 ^ 64 - 1, 0)
  | 0x12 => (2 ^ 32 - 1, 0)
  | 0x18 => (0, 1)
  | 0x19 => (2 ^ 64 - 1, 0)
  | 0x1A => (0, 1)
  | 0x1B => (2 ^ 64 - 1, 0)
  | 0x20 => (255, 0)
  | 0x21 => (255, 0)
  | 0x22 => (255, 0)
  | 0x23 => (2 ^ 32 - 1, 0)
  | 0x24 => (2 ^ 32 - 1, 0)
  | 0x25 => (2 ^ 32 - 1, 0)
  | 0x26 => (1, 0)
  | 0x29 => (2 ^ 56 - 2 ^ 9 + 1, 0)
  | 0x39 => (2 ^ 36 - 1, 0)
  | 0x40 => (0x71F1F, 0)
  | _ => (0, 0)

/-- What a CSRW (0), CSRS (1) or CSRC (2) of operand a makes of a register's value (R9, R271). -/
def csrNew (op sel old a : Nat) : Nat :=
  let (rw, w1) := csrBits sel
  match op with
  | 0 => let keep := old - (old &&& rw)
    keep - (keep &&& (a &&& w1)) + (a &&& rw)
  | 1 => old ||| (a &&& rw)
  | _ => old - (old &&& (a &&& (rw ||| w1)))

/-- Sets a context's register to a value. Saturations of this bundle's own operations come after the write (R100), and so
does a flag of a declined store that was 0 before the bundle. -/
def Ctx.setCsr (k old : Ctx) (sel v : Nat) : Ctx :=
  let events := k.events - old.events
  match sel with
  | 0x00 => { k with trap := { k.trap with vecEn := bit v 0, vecAddr := fld v 2 54 } }
  | 0x01 => { k with trap := { k.trap with pc := v } }
  | 0x02 => { k with trap := { k.trap with code := fld v 0 5, unw := bit v 5 } }
  | 0x03 => { k with trap := { k.trap with addr := BitVec.ofNat 64 v } }
  | 0x04 => { k with trap := { k.trap with slot := fld v 0 3, shadow := bit v 3, issue := fld v 4 6, target := fld v 10 54 } }
  | 0x08 => if bit v 0 || !old.decl then k else { k with decl := false, declFirst := 0, declReq := 0 }
  | 0x10 => { k with rngkey := BitVec.ofNat 64 v }
  | 0x11 => { k with rngctr := BitVec.ofNat 64 v }
  | 0x12 => { k with rngstep := BitVec.ofNat 32 v }
  | 0x18 => { k with sat := bit v 0 || events ≠ 0 }
  | 0x19 => { k with satcnt := BitVec.ofNat 64 (min (v + events) (2 ^ 64 - 1)) }
  | 0x1A => { k with sperr := bit v 0 }
  | 0x1B => { k with sperrcnt := BitVec.ofNat 64 v }
  | 0x20 => { k with ls := { k.ls with e := BitVec.ofNat 8 v } }
  | 0x21 => { k with ls := { k.ls with min := BitVec.ofNat 8 v } }
  | 0x22 => { k with ls := { k.ls with max := BitVec.ofNat 8 v } }
  | 0x23 => { k with ls := { k.ls with cnt := BitVec.ofNat 32 v } }
  | 0x24 => { k with ls := { k.ls with int := BitVec.ofNat 32 (if v = 0 then 1 else v) } }
  | 0x25 => { k with ls := { k.ls with floor := BitVec.ofNat 32 v } }
  | 0x26 => { k with ls := { k.ls with fte := bit v 0 } }
  | 0x29 => { k with cbV := bit v 0, cbAddr := fld v 9 47, cbTable := if bit v 0 then k.cbTable else [] }
  | 0x39 => { k with cpatSteps := BitVec.ofNat 32 v, cpatLen := fld v 32 4 }
  | 0x40 => { k with gb := fld v 0 5, vb := fld v 8 5, pb := fld v 16 3 }
  | _ => k

/-- The steps of a CPAT value (R314). -/
def cpatValueOk (v : Nat) : Bool := WF.cpatOk (fld v 32 4 + 1) (fld v 0 32)

/-- Latches the codebook table when CBTBASE is written with V = 1 (R110): 512 bytes on pages of CLASS 5, a poisoned or
declined entry latched as poisoned. A table in a scratchpad or the ring, which have no pages, is read as it is: R110 names
no effect there (DESIGN CHOICE, log entry 65). -/
def State.latch (s : State) (v : Nat) (go : State → State) : State :=
  if bit v 0 then
    s.readWait (fld v 9 47 * 512) 512 (some 5) fun bs s =>
      let es := (List.range 256).map fun i =>
        let e := (bs.drop (2 * i)).take 2
        ((gotNat e, gotPoison e) : CbEntry)
      (go s).onCur fun k => { k with cbTable := es }
  else go s

/-- CSRW, CSRS and CSRC of every register but STAGE (R271). -/
def State.csrWrite (s : State) (t : ImmF) (op : Nat) : State :=
  s.issue (immNeed t) fun s =>
    let sel := (t.imm % 128).toNat
    let v := csrNew op sel (s.csr s.old sel) (s.g t.a).val.toNat
    let set (s : State) : State := s.onCur fun k => k.setCsr s.old sel v
    if sel = 0x39 ∧ !cpatValueOk v then s.illegal t.slot
    else if sel = 0x29 then s.latch v set
    else set s

def execCsrr (t : ImmF) (s : State) : Out :=
  .next (s.issue { immNone t with dests := [s.dg t.d] } fun s =>
    s.result 1 (s.dg t.d) (BitVec.ofNat 2048 (s.csr s.old (t.imm % 128).toNat)) false 0)

def execCsrw (t : ImmF) (s : State) : Out := .next (s.csrWrite t 0)
def execCsrs (t : ImmF) (s : State) : Out := .next (s.csrWrite t 1)
def execCsrc (t : ImmF) (s : State) : Out := .next (s.csrWrite t 2)
def execCbtbaseWrite (t : ImmF) (s : State) : Out := .next (s.csrWrite t 0)

/-- An advance of STAGE by k, sent as a release at .cl; it consumes the declined-store flag (R323). -/
def State.advanceStage (s : State) (slot k : Nat) : State :=
  s.eatDecl slot fun s => s.request .store [] (fun _ => .stage s.fc k) true none

/-- A CSRW of STAGE (R336): above COUNT an advance, else ignored. -/
def execStageCsrWrite (t : ImmF) (s : State) : Out :=
  .next (s.issue (immNeed t) fun s =>
    let v := (s.g t.a).val.toNat
    if v > s.fcore.stage then s.advanceStage t.slot (v - s.fcore.stage) else s)

/-! ## Events, yielding, ending, code maintenance (R272-R275) -/

/-- Words of a kind 6 record (R344). -/
def postWords (core x code : Nat) (payload node : Word) (queue : Nat) : List Word :=
  [BitVec.ofNat 64 (code % 2 ^ 16 + core * 2 ^ 16 + x * 2 ^ 26), payload, node, BitVec.ofNat 64 queue]

def execEvpost (t : Tri) (s : State) : Out :=
  .next (s.issue (triNeed t [srcA t, srcB t] []) fun s =>
    if s.evLoad (dieOf s.fc) ≥ 4096 then s.wait .other
    else s.eatDecl t.slot fun s =>
      let k := s.cur.task
      s.request .store [] (fun _ => .post (dieOf s.fc) (postWords s.fc s.fx (s.valA t).toNat (s.g t.b).val
        ((k.map (·.nodeId)).getD 0) ((k.map (·.queue)).getD 0))) true none)

def execYield (t : ImmF) (s : State) : Out :=
  .next (s.issue (immNone t) fun s =>
    s.onCur fun k => { k with status := .waiting (.yielding (s.fcore.cycle + t.imm.toNat + 1)) })

/-- The count of a YIELD has run out: the context is ready (R273). -/
def execYieldExpiry (core ctx : Nat) (s : State) : Out :=
  .next (match (s.ctx core ctx).status with
    | .waiting (.yielding till) =>
      if till ≤ (s.core core).cycle then s.onCtx core ctx fun k => { k with status := .ready } else s
    | _ => s)

/-- Ends the task of the context in focus once its register writes and its flush are done; until then it stays in the
ending wait (R274). -/
def State.finishEnd (s : State) : State :=
  let t : State := { s with before := none }
  if s.cur.pend.isEmpty && t.flushDone then s.freeCtx s.fc s.fx false
  else s.onCur fun k => { k with status := .waiting .ending }

def execEndTask (t : NoneF) (s : State) : Out :=
  .next (s.issue (noneNeed t) fun s =>
    if !(s.old.pend.isEmpty && s.flushDone) then s.wait .other
    else s.eatDecl t.slot fun s => (s.onCur fun k => { k.dropLoop with regions := [] }).finishEnd)

/-- ICINV waits for the causal flush, unless its length is 0; the model fetches from memory at every bundle, so nothing
is left to drop (R275, log entry 13). -/
def execIcinv (t : Tri) (s : State) : Out :=
  .next (s.issue (triNeed t [srcA t, srcB t] []) fun s =>
    if (s.g t.b).val = 0 || s.flushDone then s else s.wait .other)

/-! ## Loss scale (R277) -/

/-- LSUPD's table: the new loss-scale registers and Pd; none when the floor trap is taken, with LSFLOOR advanced. -/
def LossRegs.update (l : LossRegs) (ov : Bool) : LossRegs × Option Bool :=
  if ov then
    let atFloor : Bool := l.e.toInt ≤ l.min.toInt
    let l1 := if atFloor then { l with floor := BitVec.ofNat 32 (Nat.min (l.floor.toNat + 1) (2 ^ 32 - 1)) } else l
    if atFloor && l.fte then (l1, none)
    else ({ l1 with cnt := 0, e := if atFloor then l.e else l.e - 1 }, some true)
  else if l.e.toInt < l.max.toInt then
    if (l.cnt + 1).toNat ≥ l.int.toNat then ({ l with e := l.e + 1, cnt := 0 }, some false)
    else ({ l with cnt := l.cnt + 1 }, some false)
  else ({ l with cnt := l.int }, some false)

def execLsupd (t : Tri) (s : State) : Out :=
  .next (s.issue (triNeed t [srcA t] [s.dp t.d]) fun s =>
    let ov := s.valA t ≠ 0 || s.old.sat
    let r := s.old.ls.update ov
    let s1 := s.onCur fun k => { k with ls := r.1 }
    match r.2 with
    | none => s1.trap 8 (s.old.ls.e.signExtend 64) t.slot
    | some b =>
      (s1.onCur fun k => { k with sat := decide (k.events ≠ s.old.events) }).result 1 (s.dp t.d) (bitVec b) false 0)

end Sys2Proof.Machine
end

