-- ==== Sys2Proof/Machine/Matrix.lean ====
section
/-! DEFINITION. Meanings of the matrix map (R309-R319): loads, cell patterns, runs, drains, tile operations, regrowing;
the matrix engine's element schedule, freezes and completions (R303). -/

namespace Sys2Proof.Machine

/-! ## Tiles (R55, R57) -/

def Tile.row (t : Tile) (i : Nat) : List Int := (t.rows.get i (List.replicate 128 0)).map (·.toInt)

def Tile.setRow (t : Tile) (i : Nat) (xs : List Int) : Tile := { t with rows := t.rows.set i (xs.map (BitVec.ofInt 32)) }

/-- Sets or clears the poison bit of a row. -/
def Tile.setPoison (t : Tile) (i : Nat) (p : Bool) : Tile :=
  { t with poison := if p then t.poison ||| (1#128 <<< i) else t.poison &&& ~~~(1#128 <<< i) }

/-- A tile with rows [row0, row0 + n) zero and unpoisoned. -/
def Tile.clearRows (t : Tile) (row0 n : Nat) : Tile :=
  (List.range n).foldl (fun t i => (t.setRow (row0 + i) (List.replicate 128 0)).setPoison (row0 + i) false) t

def State.onTile (s : State) (c t : Nat) (f : Tile → Tile) : State :=
  s.onCore c fun k => { k with acc := k.acc.set t (f (k.acc.get t {})) }

/-- Whether the task in focus has claimed a tile (R57). -/
def State.claimed (s : State) (t : Nat) : Bool := (s.tile t).claim = some s.fx

/-- A tile as a destination: empty until `due`, or until its command completes when it is not `known` (R208, R315). -/
def State.tileBusy (s : State) (c x t due sat : Nat) (known : Bool) : State :=
  (s.onTile c t fun k => { k with full := false }).onCtx c x fun k => { k with pend := k.pend ++
    [{ dest := .acc t, due, val := 0, poison := false, landed := false, arrived := known, req := 0, sat }] }

/-- A tile is full again. -/
def State.tileFull (s : State) (c x t : Nat) : State :=
  (s.onTile c t fun k => { k with full := true }).onCtx c x fun k => { k with pend := k.pend.filter fun p =>
    ¬ (p.dest = .acc t ∧ !p.arrived) }

/-- A claimed tile as a destination, and as a source with its B bit. -/
def State.accDest (s : State) (t : Nat) : List Dest := if s.claimed t then [.acc t] else []
def State.accSrc (s : State) (t : Nat) (b : Bool) : List Src := if s.claimed t then [.acc t b] else []

/-! ## Stationary buffers (R309, R310) -/

def Core.buf (k : Core) (b : Nat) : StatBuf := k.bufs.get b {}
def Core.setBuf (k : Core) (b : Nat) (v : StatBuf) : Core := { k with bufs := k.bufs.set b v }

/-- Rows of a load: Ks of R311, KK of R312; none for a format that R310 does not pair. -/
def loadKs (sparse : Bool) (fmt : Nat) : Option Nat :=
  match sparse, fmt with
  | false, 0 => some 256
  | false, 1 => some 128
  | false, 2 => some 128
  | false, 9 => some 256
  | true, 0 => some 256
  | true, 1 => some 128
  | _, _ => none

/-- K and the array cycles of a moving row (R310). -/
def pairing (fmt : Nat) (sparse : Bool) (moving : Nat) : Option (Nat × Nat) :=
  match fmt, sparse, moving with
  | 1, false, 1 => some (128, 1)
  | 0, false, 0 => some (256, 1)
  | 9, false, 0 => some (256, 1)
  | 2, false, 2 => some (128, 4)
  | 1, true, 1 => some (256, 1)
  | 0, true, 0 => some (512, 1)
  | _, _, _ => none

/-- Whether a buffer has another load or regrow under way. -/
def Core.loading (k : Core) (b : Nat) : Bool :=
  k.mx.any fun m => match m.kind with
    | .load b' _ _ _ _ => b' = b
    | .regrow b' _ _ _ => b' = b
    | _ => false

/-- Whether a CPYM is still to issue a load of a buffer (R322). -/
def Core.loadToCome (k : Core) (b : Nat) : Bool :=
  k.ch.any fun t => t.2.queue.any fun i => match i.cmd with
    | .cpym _ _ op ext _ => followBuf op ext = some b
    | _ => false

/-- Whether a buffer is ready once a load or regrow of it has completed (R309, R322). -/
def Core.readyAfter (k : Core) (b : Nat) : Bool := !k.loading b && !k.loadToCome b

/-- The weights of a dense load: column j's element at each k (R311). -/
def denseCols (west : Bool) (ks : Nat) (es : List Elem) : List (List (Nat × Int)) :=
  let a := es.toArray
  (List.range 128).map fun j => (List.range ks).map fun k => (k, (a.getD (if west then j * ks + k else 128 * k + j) (0, true)).1)

/-- A metadata byte is legal (R312). -/
def metaOk (m : Nat) : Bool := fld m 0 2 < fld m 2 2 && fld m 4 4 = 0

/-- The weights of a sparse load and the illegal groups (R312). -/
def sparseCols (kk : Nat) (kept metas : List Elem) : List (List (Nat × Int)) × Nat :=
  let a := kept.toArray
  let b := metas.toArray
  let md (g j : Nat) : Nat := ((b.getD (g * 128 + j) (0, true)).1 % 256).toNat
  let w (k j : Nat) : Int := (a.getD (128 * k + j) (0, true)).1
  ((List.range 128).map fun j => (List.range (kk / 2)).flatMap fun g =>
      let m := md g j
      if metaOk m then [(4 * g + fld m 0 2, w (2 * g) j), (4 * g + fld m 2 2, w (2 * g + 1) j)]
      else [(4 * g, 0), (4 * g + 1, 0)],
   (((List.range (kk / 2)).flatMap fun g => (List.range 128).map fun j => md g j).filter fun m => !metaOk m).length)

/-! ## One moving row (R105, R315) -/

/-- A cell operation over the kept positions of a column. -/
def cellOp (op : Nat) (acc : Int) (a : Array Int) (col : List (Nat × Int)) : Int :=
  match op with
  | 0 => acc + (col.map fun p => a.getD p.1 0 * p.2).sum
  | 1 => acc + (col.map fun p => let x := a.getD p.1 0 - p.2; if x < 0 then -x else x).sum
  | _ => (col.map fun p => a.getD p.1 0 + p.2).foldl max acc

/-- A tile after one moving row into row i, with the changes by saturation. -/
def Tile.run (t : Tile) (i op : Nat) (es : List Elem) (w : StatBuf) : Tile × Nat :=
  let a := (es.map (·.1)).toArray
  let xs := ((t.row i).zip w.cols).map fun p => cellOp op p.1 a p.2
  let t1 := t.setRow i (xs.map fun x => sat x 32)
  (if w.pois || es.any (·.2) then t1.setPoison i true else t1, (xs.filter fun x => sat x 32 ≠ x).length)

/-- All rows of a run. -/
def Tile.runRows (t : Tile) (row0 rows : Nat) (w : StatBuf) (steps len : Nat) (es : List Elem) : Tile × Nat :=
  let k := es.length / max 1 rows
  (List.range rows).foldl (fun acc r =>
    let y := acc.1.run (row0 + r) (fld steps (2 * (r % (len + 1))) 2) ((es.drop (r * k)).take k) w
    (y.1, acc.2 + y.2)) (t, 0)

/-! ## Regrowing (R318) -/

/-- A weight of a group: position, value, poison. -/
abbrev GWeight := Nat × Int × Bool

/-- Swaps one candidate in when it is larger than the smaller live weight. -/
def regrowOne (live cand : List GWeight) (c : GWeight) : List GWeight × List GWeight :=
  let mag (x : GWeight) : Nat := x.2.1.natAbs
  match live with
  | [a, b] =>
    let sm := if mag a < mag b then a else if mag b < mag a then b else if a.1 > b.1 then a else b
    if mag c > mag sm then ((live.filter (· ≠ sm)) ++ [c], (cand.filter (· ≠ c)) ++ [sm]) else (live, cand)
  | _ => (live, cand)

/-- A group after both candidates. -/
def regrowGroup (live cand : List GWeight) : List GWeight × List GWeight :=
  match cand with
  | [a, b] =>
    let first := if b.2.1.natAbs > a.2.1.natAbs then b else a
    let second := if first = a then b else a
    let r := regrowOne live cand first
    regrowOne r.1 r.2 second
  | _ => (live, cand)

def byPos (l : List GWeight) : List GWeight := l.mergeSort fun a b => a.1 ≤ b.1

/-- Group n = 128 g + j of a buffer with its two candidates: the live weights after it, the elements for Qo, the byte
for Qm. -/
def regrowAt (w : StatBuf) (n : Nat) (es : List Elem) : List GWeight × List Elem × Int :=
  let g := n / 128
  let live := (((w.cols.getD (n % 128) []).drop (2 * g)).take 2).map fun p => ((p.1 - 4 * g, p.2, false) : GWeight)
  let others := [0, 1, 2, 3].filter fun p => !(live.any fun l => l.1 = p)
  let cand := (others.zip es).map fun (p, e) => ((p, e.1, e.2) : GWeight)
  let r := regrowGroup live cand
  let nl := byPos r.1
  (nl, (byPos (r.1 ++ r.2)).map (fun x => (x.2.1, x.2.2)),
   match nl with | [a, b] => (a.1 + 4 * b.1 : Nat) | _ => 0)

/-- The columns after a regrow. -/
def regrowCols (w : StatBuf) (kk : Nat) (es : List Elem) : List (List (Nat × Int)) :=
  (List.range 128).map fun j => (List.range (kk / 2)).flatMap fun g =>
    let n := g * 128 + j
    (regrowAt w n ((es.drop (2 * n)).take 2)).1.map fun x => (4 * g + x.1, x.2.1)

/-! ## The element schedule (R303, R319) -/

/-- Steps of a command that are due at cycle t; all of a command without an L1 cycle. -/
def MxCmd.steps (m : MxCmd) (t : Nat) : Nat :=
  match m.due with
  | none => 2 ^ 20
  | some _ => if t < m.start then 0 else (t - m.start) / m.step + 1

/-- Groups of a regrow that are due to be pushed after `n` steps: seven cycles behind its candidates. -/
def MxCmd.pushes (m : MxCmd) (n : Nat) : Nat :=
  match m.kind, m.needs with
  | .regrow _ _ _ _, (_, total, per) :: _ => min (total / 2) ((n - 7) * (per / 2))
  | _, _ => 0

/-- Whether a command has taken and pushed everything. -/
def MxCmd.done (m : MxCmd) : Bool :=
  ((m.needs.zip m.got).all fun p => p.1.2.1 ≤ p.2.length) &&
    match m.kind, m.needs with
    | .drainQ _ _ _ _ rows, _ => rows.isEmpty
    | .regrow _ _ _ _, (_, total, _) :: _ => total / 2 ≤ m.given
    | _, _ => true

/-- Whether a follow-on run still waits for its buffer (R217). -/
def MxCmd.heldBy (m : MxCmd) (k : Core) : Bool :=
  match m.kind with
  | .run _ _ _ b none _ _ => !(k.buf b).ready && k.loading b
  | _ => false

/-- Takes the elements due after n steps, as far as they are there. -/
def MxCmd.takes (m : MxCmd) (s : State) (c n : Nat) : State × MxCmd :=
  let out := (m.needs.zip m.got).foldl (fun (acc : State × List (List Elem)) p =>
    let st := acc.1.strm c m.ctx p.1.1
    let k := st.avail (min p.1.2.1 (n * p.1.2.2) - p.2.length)
    let r := st.take k
    (acc.1.setStrm c m.ctx p.1.1 r.2, acc.2 ++ [p.2 ++ r.1])) (s, [])
  (out.1, { m with got := out.2 })

/-- Pushes the rows of a drain while there is room. -/
def pushRows (s : State) (c x q : Nat) : List (List Int × Bool) → State × List (List Int × Bool)
  | [] => (s, [])
  | r :: rs =>
    if (s.strm c x q).room < 128 then (s, r :: rs)
    else pushRows (s.push c x q (r.1.map fun v => (v, r.2))) c x q rs

/-- Pushes groups of a regrow while there is room. -/
def pushGroups (s : State) (c x qo qm : Nat) (w : StatBuf) (es : List Elem) : Nat → Nat → State × Nat
  | 0, g => (s, g)
  | f + 1, g =>
    if (s.strm c x qo).room < 4 ∨ (s.strm c x qm).room < 1 ∨ es.length < 2 * g + 2 then (s, g)
    else
      let r := regrowAt w g ((es.drop (2 * g)).take 2)
      pushGroups ((s.push c x qo r.2.1).push c x qm [(r.2.2, false)]) c x qo qm w es f (g + 1)

/-- Advances one command by what is due after n steps. -/
def MxCmd.advance (m : MxCmd) (s : State) (c n : Nat) : State × MxCmd :=
  if m.heldBy (s.core c) then (s, m)
  else
    let (s1, m1) := m.takes s c n
    match m1.kind with
    | .drainQ t r0 clr q rows =>
      let (s2, rest) := pushRows s1 c m.ctx q rows
      (s2, { m1 with kind := .drainQ t r0 clr q rest })
    | .regrow _ qo qm w =>
      let (s2, g) := pushGroups s1 c m.ctx qo qm w (m1.got.headD []) (m1.pushes n - m1.given) m1.given
      (s2, { m1 with given := g })
    | _ => (s1, m1)

/-- Advances the commands in engine order: a command starts when every earlier one has taken all its elements. An
earlier command that a later due one waits for runs on as its elements come (log entry 22). -/
def pumpList (s : State) (c t : Nat) : List MxCmd → State × List MxCmd
  | [] => (s, [])
  | m :: r =>
    let pressed := r.any fun n => n.due.isSome && !n.needs.isEmpty && n.start ≤ t
    let (s1, m1) := m.advance s c (if pressed then 2 ^ 20 else m.steps t)
    if m1.done then
      let (s2, r2) := pumpList s1 c t r
      (s2, m1 :: r2)
    else (s1, m1 :: r)

def State.pump (s : State) (c : Nat) : State :=
  let (s1, l) := pumpList s c (s.core c).cycle (s.core c).mx
  s1.onCore c fun k => { k with mx := l }

/-- Whether a command has elements due that it has not taken or pushed: the core's domain is frozen (R303, R215). -/
def MxCmd.late (m : MxCmd) (t : Nat) : Bool :=
  m.due.isSome &&
    (((m.needs.zip m.got).any fun p => p.2.length < min p.1.2.1 (m.steps t * p.1.2.2)) || m.given < m.pushes (m.steps t))

def Core.mxLate (k : Core) : Bool := k.mx.any fun m => m.late k.cycle

/-- Whether the engine can take or push something now. -/
def State.mxCan (s : State) (c : Nat) : Bool :=
  let k := s.core c
  let rec go : List MxCmd → Bool
    | [] => false
    | m :: r =>
      if m.done then go r
      else
        let pressed := r.any fun n => n.due.isSome && !n.needs.isEmpty && n.start ≤ k.cycle
        let n := if pressed then 2 ^ 20 else m.steps k.cycle
        !m.heldBy k &&
          (((m.needs.zip m.got).any fun p =>
              let want := min p.1.2.1 (n * p.1.2.2) - p.2.length
              0 < want && 0 < (s.strm c m.ctx p.1.1).avail want) ||
            match m.kind with
            | .drainQ _ _ _ q rows => !rows.isEmpty && 128 ≤ (s.strm c m.ctx q).room
            | .regrow _ qo qm _ =>
              m.given < m.pushes n && 4 ≤ (s.strm c m.ctx qo).room && 1 ≤ (s.strm c m.ctx qm).room &&
                2 * m.given + 2 ≤ (m.got.headD []).length
            | _ => false)
  go k.mx

/-! ## Completions (R311-R319, R322) -/

/-- The effect of a matrix command that completes. A load leaves its own placement and format; while another load of the
buffer is pending, that one's stand (R309, R322). -/
def State.mxEffect (s : State) (c : Nat) (m : MxCmd) : State :=
  let k := s.core c
  let mine := s.sameTask c m.ctx m.task
  match m.kind with
  | .load b sparse ks west fmt =>
    let es := m.got.headD []
    let old := k.buf b
    let r := if sparse then sparseCols ks es (m.got.getD 1 []) else (denseCols west ks es, 0)
    let shape : StatBuf := if k.readyAfter b then { old with fmt, sparse, west, ready := true } else { old with ready := false }
    let s1 := s.onCore c fun k => k.setBuf b { shape with cols := r.1, pois := m.got.any fun l => l.any (·.2) }
    if r.2 = 0 ∨ !mine then s1
    else s1.onCtx c m.ctx fun q =>
      { q with sperr := true, sperrcnt := BitVec.ofNat 64 (min (q.sperrcnt.toNat + r.2) (2 ^ 64 - 1)) }
  | .run t row0 rows b w steps len =>
    if mine then
      let r := (k.acc.get t {}).runRows row0 rows (w.getD (k.buf b)) steps len (m.got.headD [])
      ((s.onTile c t fun _ => r.1).tileFull c m.ctx t).onCtx c m.ctx fun q => q.count r.2
    else s
  | .drainQ t _ clr _ _ => if clr && mine then s.tileFull c m.ctx t else s
  | .regrow b _ _ w =>
    let es := m.got.headD []
    s.onCore c fun k => k.setBuf b { k.buf b with
      cols := regrowCols w (if w.fmt = 1 then 128 else 256) es, pois := w.pois || es.any (·.2), ready := k.readyAfter b }
  | .tally => s
  | .dead => s

/-- A matrix command completes: its effect, its number, and the number of the CPYM it follows. -/
def State.mxFinish (s : State) (c : Nat) (m : MxCmd) (rest : List MxCmd) : State :=
  let s1 := (s.onCore c fun k => { k with mx := rest }).mxEffect c m
  let s2 := match m.num with | some n => s1.onTl c .mx fun t => t.finish n false | none => s1
  let s3 := match m.chan with | some (ch, n) => s2.onTl c (.ch ch) fun t => t.finish n false | none => s2
  s3.releaseFreed c

/-- The first command that can complete, with the others. -/
def mxReady (t : Nat) : List MxCmd → Option (MxCmd × List MxCmd)
  | [] => none
  | m :: r =>
    if m.done && (match m.due with | some d => d ≤ t | none => true) then some (m, r)
    else (mxReady t r).bind fun p => if p.1.due.isNone then none else some (p.1, m :: p.2)

/-- One event of the matrix engine: a completion, or elements taken or pushed. -/
def State.mxStep (s : State) (c : Nat) : Option State :=
  match mxReady (s.core c).cycle (s.core c).mx with
  | some (m, r) => some (s.mxFinish c m r)
  | none => if s.mxCan c then some (s.pump c) else none

/-! ## Meanings -/

/-- A matrix command of the context in focus enters the engine. -/
def State.mxPush (s : State) (m : MxCmd) : State := s.onFc fun k => { k with mx := k.mx ++ [m] }

/-- The MxCmd of the context in focus with the parts of a command issued now. -/
def State.mxCmd (s : State) (kind : MxKind) : MxCmd := { ctx := s.fx, task := s.cur.taskId, kind }

/-- A bound read stream of the context in focus. -/
def State.readStream (s : State) (q : Nat) : Option Stream :=
  let st := s.cur.qAt q
  if st.bound && !st.freed && !st.write then some st else none

/-- A bound write stream. -/
def State.writeStream (s : State) (q : Nat) : Option Stream :=
  let st := s.cur.qAt q
  if st.bound && !st.freed && st.write && !st.closing then some st else none

/-- Whether an earlier run still reads a buffer (R309). -/
def Core.bufRead (k : Core) (b : Nat) : Bool :=
  k.mx.any fun m => match m.kind with
    | .run _ _ _ b' _ _ _ => b' = b && !m.done
    | _ => false

/-- Elements of a stream of the context in focus that earlier matrix commands have still to take. -/
def State.takenBefore (s : State) (q : Nat) : Nat :=
  ((s.fcore.mx.filter fun m => m.ctx = s.fx).map fun m =>
    ((m.needs.zip m.got).map fun p => if p.1.1 = q then p.1.2.1 - p.2.length else 0).sum).sum

/-- What a load asks of its streams and buffer: the illegal cases of R309-R312; the rows of the load otherwise. -/
def State.loadOk (s : State) (b : Nat) (qa : Nat) (qb : Option Nat) : Option (Stream × Nat) :=
  match s.readStream qa with
  | none => none
  | some st =>
    let own := (s.fcore.buf b).owner
    let metas : Bool := match qb with
      | none => true
      | some q => match s.readStream q with | some m => dFmt m.desc = 5 | none => false
    match loadKs qb.isSome (dFmt st.desc) with
    | some ks => if metas && (own = none || own = some s.fx) then some (st, ks) else none
    | none => none

/-- A load command: the buffer is owned and not ready from the next cycle on. -/
def State.startLoad (s : State) (b qa : Nat) (qb : Option Nat) (west : Bool) (fmt ks : Nat) (m : MxCmd) : State :=
  let needs := match qb with
    | none => [(qa, 128 * ks, ks)]
    | some q => [(qa, 128 * ks, ks), (q, 64 * ks, ks / 2)]
  (s.mxPush { m with kind := .load b qb.isSome ks west fmt, needs, got := needs.map fun _ => [] }).onFc fun k =>
    k.setBuf b { k.buf b with owner := some s.fx, fmt, sparse := qb.isSome, west, ready := false }

/-- MLDN, MLDW and MLDS (R311, R312): a strict MLDS checks its own metadata bytes, behind those that earlier commands
take. -/
def State.loadOp (s : State) (t : Tri) (qb : Option Nat) (west : Bool) : State :=
  s.issue { slot := t.slot, pred := t.pred, srcs := [], dests := [] } fun s =>
    match s.loadOk t.d t.a qb with
    | none => s.illegal t.slot
    | some (st, ks) =>
      let strict : Option Stream := match qb with
        | some q => if dStrict (s.cur.qAt q).desc then some (s.cur.qAt q) else none
        | none => none
      let go (s : State) : State :=
        s.startLoad t.d t.a qb west (dFmt st.desc) ks
          { s.mxCmd .tally with start := s.fcore.cycle + 1, due := some (s.fcore.cycle + 136) }
      if s.fcore.bufRead t.d then s.wait .other
      else match strict with
        | some m =>
          let n := s.takenBefore t.b
          if !m.ended && m.buf.length < n + 64 * ks then s.wait .other
          else if ((m.take (n + 64 * ks)).1.drop n).any fun e => !metaOk (e.1 % 256).toNat then s.trap 6 0 t.slot
          else go s
        | none => go s

def execMldn (t : Tri) (s : State) : Out := .next (s.loadOp t none false)
def execMldw (t : Tri) (s : State) : Out := .next (s.loadOp t none true)
def execMlds (t : Tri) (s : State) : Out := .next (s.loadOp t (some t.b) false)

def execMcps (t : ImmF) (s : State) : Out :=
  .next (s.issue { slot := t.slot, pred := t.pred, srcs := [], dests := [] } fun s =>
    s.onCur fun k => { k with cpatSteps := BitVec.ofInt 32 t.imm, cpatLen := t.d })

/-- The checks of MRUN (R310, R315): array cycles, first row, rows, K, cycles a row. -/
def State.runOk (s : State) (t : Tri) (follow : Bool) : Option (Nat × Nat × Nat × Nat × Nat) :=
  let x := t.ext.getD 0
  let b := s.fcore.buf (fld x 16 1)
  match s.readStream t.a with
  | none => none
  | some st =>
    match pairing b.fmt b.sparse (dFmt st.desc) with
    | none => none
    | some (k, step) =>
      let n := fld x 0 9 + 1
      if (st.feed = 2 && !follow) || b.owner ≠ some s.fx || n % step ≠ 0 || fld x 9 7 + n / step > 128 || !s.claimed t.d then
        none
      else some (n, fld x 9 7, n / step, k, step)

/-- MRUN: it waits while its buffer is not ready, and its checks are those of the cycle in which it issues (R217, R347). -/
def execMrun (t : Tri) (s : State) : Out :=
  .next (s.issue { slot := t.slot, pred := t.pred, srcs := [], dests := s.accDest t.d } fun s =>
    let b := fld (t.ext.getD 0) 16 1
    if (s.fcore.buf b).owner = some s.fx && !(s.fcore.buf b).ready then s.wait .regs
    else match s.runOk t false with
      | none => s.illegal t.slot
      | some (n, row0, rows, k, step) =>
        let due := s.fcore.cycle + n + 140
        let num := s.nextNum .mx
        let m : MxCmd := { s.mxCmd (.run t.d row0 rows b (some (s.fcore.buf b)) s.old.cpatSteps.toNat s.old.cpatLen) with
          start := s.fcore.cycle + 1, step, due := some due, num := some num, needs := [(t.a, rows * k, k)], got := [[]] }
        ((s.mxPush m).onTl s.fc .mx fun tl => { tl with issued := num }).tileBusy s.fc s.fx t.d due 0 false)

/-- The rows a drain reads, with the Hadamard option (R316). -/
def drainRows (k : Tile) (row0 nr had : Nat) : List (List Int × Bool) :=
  (List.range nr).map fun i =>
    let xs := k.row (row0 + i)
    ((match had with | 0 => xs | 1 => hadamard 16 xs | _ => hadamard 32 xs), k.poison.getLsbD (row0 + i))

def execMdrain (t : Tri) (s : State) : Out :=
  let x := t.ext.getD 0
  let nr := fld x 19 7 + 1
  let row0 := fld x 12 7
  let clr := bit x 26
  let regs := if bit x 0 then (List.range (2 * nr)).map fun i => s.dv (t.d + i) else []
  .next (s.issue { slot := t.slot, pred := t.pred, srcs := s.accSrc t.a t.ba,
                   dests := regs ++ (if clr then s.accDest t.a else []) } fun s =>
    let rows := drainRows (s.tile t.a) row0 nr (fld x 8 2)
    if !s.claimed t.a then s.illegal t.slot
    else if bit x 0 then
      let L := 2 * nr + 24
      let vw := 8 * 2 ^ fld x 10 2
      let outs := rows.map fun r => (r.1.map fun v => shiftdown v (fld x 1 6) (fld x 7 1) 0 0, r.2)
      let vals := outs.flatMap fun r =>
        let ys := r.1.map fun v => Machine.sat v vw
        [(ofLanes 32 (ys.take 64), r.2), (ofLanes 32 (ys.drop 64), r.2)]
      let sats := (outs.map fun r => (r.1.filter fun v => Machine.sat v vw ≠ v).length).sum
      let num := s.nextNum .mx
      let due := s.fcore.cycle + L
      let s1 := (regs.zip vals).foldl (fun s p => s.result L p.1 p.2.1 p.2.2 0) s
      let s2 := s1.onCur fun k => { k with pend := match k.pend.reverse with
        | p :: r => (({ p with sat := sats } : Pend) :: r).reverse
        | [] => [] }
      let s3 := (s2.mxPush { s.mxCmd .tally with due := some due, num := some num }).onTl s.fc .mx fun tl => { tl with issued := num }
      if clr then (s3.onTile s.fc t.a fun k => k.clearRows row0 nr).tileBusy s.fc s.fx t.a due 0 true else s3
    else match s.writeStream t.d with
      | none => s.illegal t.slot
      | some st =>
        if st.feed = 2 then s.illegal t.slot
        else
          let s1 := s.mxPush { s.mxCmd (.drainQ t.a row0 clr t.d rows) with due := none }
          if clr then (s1.onTile s.fc t.a fun k => k.clearRows row0 nr).tileBusy s.fc s.fx t.a 0 0 false else s1)

def execMclr (t : Tri) (s : State) : Out :=
  .next (s.issue { slot := t.slot, pred := t.pred, srcs := [], dests := s.accDest t.d } fun s =>
    if !s.claimed t.d then s.illegal t.slot
    else (s.onTile s.fc t.d fun k => { k with rows := [], poison := 0 }).tileBusy s.fc s.fx t.d (s.fcore.cycle + 2) 0 true)

def execMaccmv (t : Tri) (s : State) : Out :=
  .next (s.issue { slot := t.slot, pred := t.pred, srcs := s.accSrc t.a t.ba, dests := s.accDest t.d } fun s =>
    if !s.claimed t.a || !s.claimed t.d then s.illegal t.slot
    else
      let src := s.tile t.a
      let sums := (List.range 128).map fun i => ((s.tile t.d).row i).zipWith (· + ·) (src.row i)
      let changes := (sums.map fun r => (r.filter fun v => Machine.sat v 32 ≠ v).length).sum
      let f (d : Tile) : Tile :=
        if t.b = 0 then { d with rows := src.rows, poison := src.poison }
        else { (sums.zipIdx.foldl (fun d r => d.setRow r.2 (r.1.map fun v => Machine.sat v 32)) d) with
               poison := d.poison ||| src.poison }
      (s.onTile s.fc t.d f).tileBusy s.fc s.fx t.d (s.fcore.cycle + 132) (if t.b = 0 then 0 else changes) true)

def execMpois (t : Tri) (s : State) : Out :=
  .next (s.issue { slot := t.slot, pred := t.pred, srcs := s.accSrc t.a t.ba, dests := [s.dg t.d] } fun s =>
    if !s.claimed t.a then s.illegal t.slot
    else s.result 2 (s.dg t.d) (BitVec.ofNat 2048 (fld (s.tile t.a).poison.toNat (64 * t.b) 64)) false 0)

def execMregrow (t : Tri) (s : State) : Out :=
  .next (s.issue { slot := t.slot, pred := t.pred, srcs := [], dests := [] } fun s =>
    let b := t.ext.getD 0
    let buf := s.fcore.buf b
    match s.writeStream t.d, s.readStream t.a, s.writeStream t.b with
    | some o, some c, some m =>
      if buf.owner = some s.fx && (!buf.ready || s.fcore.bufRead b) then s.wait .regs
      else if !buf.sparse || buf.owner ≠ some s.fx || dFmt c.desc ≠ buf.fmt || dFmt o.desc ≠ buf.fmt || dFmt m.desc ≠ 5 then
        s.illegal t.slot
      else
        let kk := if buf.fmt = 1 then 128 else 256
        let m : MxCmd := { s.mxCmd (.regrow b t.d t.b buf) with
          start := s.fcore.cycle + 1, due := some (s.fcore.cycle + 136), needs := [(t.a, 128 * kk, kk)], got := [[]] }
        (s.mxPush m).onFc fun k => k.setBuf b { buf with ready := false }
    | _, _, _ => s.illegal t.slot)

end Sys2Proof.Machine
end

