-- ==== Sys2Proof/Machine/Transfer.lean ====
section
/-! DEFINITION. Meanings of the transfer map (R304-R308, R320-R327): stream bindings, descriptor fields, copies, STAGE,
the grid unit, window put contexts, collectives, spawn. -/

namespace Sys2Proof.Machine

/-! ## Stream operations (R304-R308) -/

/-- The number of a command goes to Gd at latency 2 (R299). -/
def State.numberTo (s : State) (d n : Nat) : State := s.result 2 (s.dg d) (BitVec.ofNat 2048 (n % 2 ^ 64)) false 0

/-- A descriptor-bound write of the context in focus takes its place in issue order (R99). -/
def State.descPush (s : State) (dn : Nat) : State := s.onCur fun k => { k with descPend := k.descPend ++ [(dn, s.nextId)] }

def execSbind (t : Tri) (s : State) : Out :=
  let x := t.ext.getD 0
  let wr := bit x 0
  let feed := fld x 1 2
  .next (s.issue { slot := t.slot, pred := t.pred, srcs := [], dests := [s.dg t.d] } fun s =>
    let old := s.cur.qAt t.a
    let d := s.cur.dAt t.b
    if old.bound && !old.freed then s.illegal t.slot
    else if old.freed then s.wait .other
    else if dBad d s.cur.cbV || (wr && dFmt d = 9) then s.illegal t.slot
    else if wr && bit x 5 && s.cur.descBusy t.b then s.wait .desc
    else
      let ch := fld x 3 2
      let num := if feed = 0 then s.nextNum (.ch ch) else 0
      let k := s.cur
      let st : Stream :=
        { bound := true, write := wr, feed, ch := if feed = 0 then ch else 0, desc := d, dn := t.b
          shift := if wr then (if bit x 5 then censusShift d else fld x 6 6) else 0
          mode := if fld x 12 2 = 3 then dRnd d else fld x 12 2, es := sx (fld x 14 8 : Nat) 8, pat := old.pat
          seq := num % 2 ^ 32, asid := k.asid, task := k.taskId, upd := s.nextId, key := s.old.rngkey
          rstep := s.old.rngstep, table := if dCbsel d = 1 then some k.cbTable else none }
      let s1 := s.setStrm s.fc s.fx t.a st
      let s2 := if feed ≠ 0 then s1
        else (if wr then s1.descPush t.b else s1).command (.ch ch) (if wr then .streamWr t.a none else .streamRd t.a none)
      s2.numberTo t.d num)

/-- A packing pattern from its image (R112); none when it is malformed. -/
def patternOf (bs : List Byte) : Option Pattern :=
  let w0 := leNat (bs.take 8)
  let nf := fld w0 4 6
  let period := 8 * (w0 % 16 + 1)
  let raw := (List.range nf).map fun f => leNat ((bs.drop (8 + 2 * f)).take 2)
  let fields := raw.map fun e => (fld e 0 7, fld e 7 4 + 1, bit e 11)
  if w0 / 2 ^ 10 = 0 && 1 ≤ nf && nf ≤ 32 && (raw.all fun e => fld e 12 4 = 0) &&
      (fields.all fun f => f.1 + f.2.1 ≤ period) then some { period, fields }
  else none

def execSpat (t : Tri) (s : State) : Out :=
  .next (s.issue { slot := t.slot, pred := t.pred, srcs := [srcB t], dests := [], eats := [srcB t] } fun s =>
    let old := s.cur.qAt t.a
    if old.bound && !old.freed then s.illegal t.slot
    else s.readWait (s.g t.b).val.toNat 72 none fun bs s =>
      if gotPoison bs then s.trap 5 (BitVec.ofNat 64 s.cur.declFirst) t.slot
      else match patternOf (bs.map (·.1)) with
        | none => s.illegal t.slot
        | some p => s.setStrm s.fc s.fx t.a (if old.freed then { old with nextPat := some p } else { pat := some p }))

/-- Bytes of the elements a helper-fed write stream still holds, densely at FMT width (R334). -/
def Stream.bytesLeft (st : Stream) : Nat := st.bytes.length + (st.buf.length * fmtWidth (dFmt st.desc) + 7) / 8

def execSfree (t : Tri) (s : State) : Out :=
  .next (s.issue { slot := t.slot, pred := t.pred, srcs := [], dests := [] } fun s =>
    let st := s.cur.qAt t.a
    if st.freed then s.setStrm s.fc s.fx t.a { st with nextPat := none }
    else if !st.bound then s.setStrm s.fc s.fx t.a {}
    else if s.streamUsed s.fc s.fx t.a then s.wait .other
    else if st.write && st.feed = 1 then
      if st.bytesLeft ≥ 4 then s.wait .other
      else if st.bytesLeft = 0 then s.setStrm s.fc s.fx t.a {}
      else s.setStrm s.fc s.fx t.a { st with closing := true }
    else s.release s.fc s.fx t.a)

/-- The status word of a stream (R308). -/
def Stream.status (st : Stream) : Nat :=
  if st.bound && !st.freed then
    st.buf.length % 2 ^ 16 + 2 ^ 16 + bn st.write 17 + st.feed * 2 ^ 18 + st.ch * 2 ^ 20 + bn st.pat.isSome 22 +
      bn (st.feed = 0 && st.next ≥ st.total || (st.write && st.next ≥ st.total)) 23 + bn st.pois 24 + st.seq * 2 ^ 32
  else bn (if st.freed then st.nextPat.isSome else st.pat.isSome) 22

def execSstat (t : Tri) (s : State) : Out :=
  .next (s.issue { slot := t.slot, pred := t.pred, srcs := [], dests := [s.dg t.d] } fun s =>
    s.result 2 (s.dg t.d) (BitVec.ofNat 2048 (s.old.qAt t.a).status) false 0)

/-! ## Descriptors (R320) -/

/-- Place, width and sign of a descriptor field code. -/
def descPlace (f : Nat) : Nat × Nat × Bool :=
  match f with
  | 0 => (0, 56, false) | 1 => (56, 4, false) | 2 => (60, 3, false) | 3 => (64, 8, true) | 4 => (72, 6, false)
  | 5 => (78, 1, false) | 6 => (79, 1, false) | 7 => (80, 6, false) | 8 => (86, 4, false) | 9 => (90, 2, false)
  | 10 => (92, 1, false) | 11 => (576, 56, false)
  | _ => if f < 24 then (128 + 24 * (f - 16), 24, false) else (320 + 32 * (f - 24), 32, true)

def execDset (t : Tri) (s : State) : Out :=
  .next (s.issue { slot := t.slot, pred := t.pred, srcs := [srcA t], dests := [], eats := [srcA t] } fun s =>
    if s.cur.descBusy t.d then s.wait .desc
    else s.readWait (s.valA t).toNat 128 none fun bs s =>
      if gotPoison bs then s.trap 5 (BitVec.ofNat 64 s.cur.declFirst) t.slot
      else s.onCur fun k => { k with d := k.d.set t.d (dKeep (BitVec.ofNat 1024 (gotNat bs))) })

/-- A read of a descriptor: it waits for the updates issued before it (R99). -/
def State.descRead (s : State) (t : Tri) (f : BitVec 1024 → Word) : State :=
  s.issue { slot := t.slot, pred := t.pred, srcs := [], dests := [s.dg t.d] } fun s =>
    if s.cur.descBusy t.a then s.wait .desc
    else s.result 2 (s.dg t.d) (wide (f (s.old.dAt t.a))) false 0

def execDget (t : Tri) (s : State) : Out :=
  .next (s.descRead t fun d => BitVec.ofNat 64 (dfld d (64 * t.b) 64))

def execDgetf (t : Tri) (s : State) : Out :=
  .next (s.descRead t fun d =>
    let p := descPlace t.b
    if p.2.2 then wd (sx (dfld d p.1 p.2.1 : Nat) p.2.1) else BitVec.ofNat 64 (dfld d p.1 p.2.1))

def execDsetf (t : Tri) (s : State) : Out :=
  .next (s.issue { slot := t.slot, pred := t.pred, srcs := [srcA t], dests := [], eats := [srcA t] } fun s =>
    if s.cur.descBusy t.d then s.wait .desc
    else
      let p := descPlace t.b
      s.onCur fun k => { k with d := k.d.set t.d (dSet (k.dAt t.d) p.1 p.2.1 (s.valA t).toNat) })

/-! ## Copies (R321, R322) -/

/-- The illegal cases of a copy. -/
def copyBad (dst src : BitVec 1024) (x : Nat) (cbV : Bool) : Bool :=
  dBad dst cbV || dBad src cbV || dCount dst ≠ dCount src || (dFmt dst = 9) ≠ (dFmt src = 9) ||
    (dFmt dst = 9 && (fld x 3 6 ≠ 0 || bit x 2))

def execCpy (t : Tri) (s : State) : Out :=
  let x := t.ext.getD 0
  .next (s.issue { slot := t.slot, pred := t.pred, srcs := [], dests := [s.dg t.d] } fun s =>
    let dst := s.cur.dAt t.a
    let src := s.cur.dAt t.b
    if copyBad dst src x s.cur.cbV then s.illegal t.slot
    else if bit x 2 && s.cur.descBusy t.a then s.wait .desc
    else
      let e := Engine.ch (fld x 0 2)
      let num := s.nextNum e
      let cmd := EngCmd.copy dst src (some t.a) (if bit x 2 then censusShift dst else fld x 3 6)
        (if fld x 9 2 = 3 then dRnd dst else fld x 9 2) (sx (fld x 11 8 : Nat) 8)
      ((s.descPush t.a).command e cmd).numberTo t.d num)

/-- Whether a follow-on would trap under its own entry now. -/
def State.followOk (s : State) (i : Instr) : Bool :=
  match i with
  | .mldn t => (s.loadOk t.d t.a none).isSome
  | .mldw t => (s.loadOk t.d t.a none).isSome
  | .mlds t => (s.loadOk t.d t.a (some t.b)).isSome
  | .mrun t => (s.runOk t true).isSome
  | _ => false

/-- The destination of a follow-on is empty, or not ready, from the next cycle on. -/
def State.followHold (s : State) (i : Instr) : State :=
  let hold (b : Nat) (sparse west : Bool) (fmt : Nat) : State := s.onFc fun k =>
    k.setBuf b { k.buf b with owner := some s.fx, fmt, sparse, west, ready := false }
  let f (q : Nat) : Nat := dFmt (s.cur.qAt q).desc
  match i with
  | .mldn t => hold t.d false false (f t.a)
  | .mldw t => hold t.d false true (f t.a)
  | .mlds t => hold t.d true false (f t.a)
  | .mrun t => s.tileBusy s.fc s.fx t.d 0 0 false
  | _ => s

def execCpym (t : Tri) (s : State) : Out :=
  let x := t.ext.getD 0
  let q := fld x 2 4
  let w := (s.g t.b).val.toNat
  let follow := followOf (w % 2 ^ 32) (w / 2 ^ 32)
  let tile : List Dest := match follow with | some (.mrun r) => s.accDest r.d | _ => []
  .next (s.issue { slot := t.slot, pred := t.pred, srcs := [srcB t], dests := s.dg t.d :: tile, eats := [srcB t] } fun s =>
    let d := s.cur.dAt t.a
    match s.readStream q, follow with
    | some st, some i =>
      if st.feed ≠ 2 || dFmt st.desc ≠ dFmt d || dBad d s.cur.cbV || dCount d * (if dFmt d = 9 then 64 else fmtWidth (dFmt d)) > 131072 ||
          !s.followOk i then s.illegal t.slot
      else
        let e := Engine.ch (fld x 0 2)
        let num := s.nextNum e
        ((s.followHold i).command e (.cpym q d (w % 2 ^ 32) (w / 2 ^ 32) false)).numberTo t.d num
    | _, _ => s.illegal t.slot)

/-! ## STAGE (R323) -/

def execStage (t : ImmF) (s : State) : Out :=
  .next (s.issue (immNone t) fun s => s.advanceStage t.slot t.imm.toNat)

/-! ## Grid unit (R324) -/

/-- A grid command issues once its descriptor has been read, after the context's earlier accesses: what is written there
later affects later commands only (R133, R156, log entry 29). One at a misaligned address is malformed and not read. -/
def State.withGd (s : State) (gd : Nat) (go : List (Byte × Bool) → State → State) : State :=
  if gd % 32 ≠ 0 then go [] s else s.readWait gd 288 none go

def execGridld (t : Tri) (s : State) : Out :=
  let n := (t.ext.getD 0) % 4096
  .next (s.issue { slot := t.slot, pred := t.pred, srcs := [srcA t, vB t], dests := [s.dv t.d, s.dv (t.d + 1)],
                   eats := [srcA t] } fun s =>
    s.withGd (s.valA t).toNat fun img s =>
      let id := s.nextId
      let s1 := ({ s with nextId := id + 2 } : State).command .grid
        (.gridld (s.valA t).toNat img (s.vVal t.b) id (s.v t.b).poison (s.dv (t.d + 1)))
      (s1.landAt n (s.dv t.d) id false).landAt n (s.dv (t.d + 1)) (id + 1) false)

def execGridsc (t : Tri) (s : State) : Out :=
  .next (s.issue { slot := t.slot, pred := t.pred, srcs := [srcA t, vB t, .v (t.b + 1) true, .v (t.b + 2) true],
                   dests := [s.dg t.d], eats := [srcA t] } fun s =>
    s.withGd (s.valA t).toNat fun img s =>
      (s.command .grid (.gridsc (s.valA t).toNat img (s.vVal t.b) (s.vVal (t.b + 1)) (s.vVal (t.b + 2)) (s.v t.b).poison
        (s.v (t.b + 1)).poison (s.v (t.b + 2)).poison)).numberTo t.d (s.nextNum .grid))

/-! ## Windows (R325) -/

/-- WPUT and WGET: must-be-0 bits are illegal. -/
def State.winOp (s : State) (t : Tri) (f : Nat → Nat → Nat → Nat → Nat → EngCmd) : State :=
  s.issue { slot := t.slot, pred := t.pred, srcs := [srcA t, srcB t, .g (t.b + 1) true], dests := [s.dg t.d],
            eats := [srcA t, srcB t, .g (t.b + 1) true] } fun s =>
    let b := (s.g t.b).val.toNat
    let b1 := (s.g (t.b + 1)).val.toNat
    if fld b 57 7 ≠ 0 || fld b1 50 14 ≠ 0 then s.illegal t.slot
    else
      let e := Engine.wp (t.ext.getD 0 % 4)
      let num := s.nextNum e
      (s.command e (f (s.valA t).toNat (fld b 0 47) (fld b 47 10) (fld b1 0 18) (fld b1 18 32))).numberTo t.d num

def execWput (t : Tri) (s : State) : Out := .next (s.winOp t fun la off win pkg len => .put la off win pkg len false)
def execWget (t : Tri) (s : State) : Out := .next (s.winOp t fun la off win pkg len => .get la off win pkg len false)

/-! ## Collectives (R326) -/

def execColl (t : Tri) (s : State) : Out :=
  .next (s.issue { slot := t.slot, pred := t.pred, srcs := [srcA t], dests := [s.dg t.d], eats := [srcA t] } fun s =>
    let num := s.nextNum .coll
    (s.command .coll (.coll (s.valA t).toNat)).numberTo t.d num)

/-! ## Spawn (R167-R169, R327) -/

/-- The core within the die that an address names. -/
def spawnCore (a : Nat) : Nat := (fld a 16 40 * 0x2F1B % 2 ^ 16) * 20 / 2 ^ 16

/-- The target core of a spawn (R167); none when the address is out of range. -/
def spawnTarget (c : Nat) (a : Nat) : Option Nat :=
  match spot (.ctx c 0) a with
  | .scratch k _ => some k
  | .ring o => some (20 * sliceOf o + spawnCore a)
  | .page => some (20 * homeDie a + spawnCore a)
  | .out => none

def execSpawn (t : Tri) (s : State) : Out :=
  let srcs := [srcA t, srcB t, Src.v t.d true]
  .next (s.issue { slot := t.slot, pred := t.pred, srcs, dests := [], eats := srcs } fun s =>
    let a := (s.valA t).toNat
    let b := (s.g t.b).val.toNat
    if b % 4 ≠ 0 then s.illegal t.slot
    else match spawnTarget s.fc a, s.cur.task with
      | some c, some k =>
        let e : Entry :=
          { entry := b % 2 ^ 56, asid := k.asid, args := a, argLen := 0, dslots := s.fcore.dslots, accm := 0, lpc := none
            spc := none, nodeId := k.nodeId, g10 := 0
            coords := (List.range 4).map (fun i => BitVec.ofNat 64 (laneBits 64 (s.vVal t.d) i))
            gang := none, ticket := 0, released := true, spawned := true, ncc := k.ncc, queue := k.queue }
        let p : SpawnPkt := { core := c, src := (s.fc, s.fx), after := s.nextId, entry := e }
        { s with spawns := s.spawns ++ [p] }.onCur fun q => { q with status := .waiting .spawn }
      | _, _ => s.declineNow a)

end Sys2Proof.Machine
end

