-- ==== Sys2Proof/Machine/Engine.lean ====
section
/-! DEFINITION. The engines at work (R132-R134, R300-R303, R321-R326): copies, stream feeders and drains, the grid unit
(R145-R156), window put contexts (R82-R85), the collective engine (R388); their completions. -/

namespace Sys2Proof.Machine

/-- Saturations and other counts reach the issuing context while its task lives (R100). -/
def State.countFor (s : State) (c : Nat) (i : EngItem) (n : Nat) : State :=
  if s.sameTask c i.ctx i.task then s.onCtx c i.ctx fun k => k.count n else s

/-- What an agent has asked for under a tag is made without it. -/
def State.disown (s : State) (ag : Agent) (tag : Nat) : State :=
  if s.owes ag tag then
    let mine (r : Req) : Bool := r.agent = ag && r.ret = .own tag
    { s with net := s.net.map fun r => if mine r then { r with ret := .none } else r
             parked := s.parked.map fun p => if mine p.req then { p with req := { p.req with ret := .none } } else p }
  else s.dropResult ag tag

/-- A command completes at its number. -/
def State.finishItem (s : State) (c : Nat) (e : Engine) (i : EngItem) (poison : Bool) : State :=
  ((s.disown (.engine c e) i.readTag).disown (.engine c e) i.writeTag).onTl c e fun t => t.finish i.num poison

/-- Replaces what a queued command does. -/
def State.setItem (s : State) (c : Nat) (e : Engine) (i : EngItem) (cmd : EngCmd) : State :=
  s.putItem c e { i with cmd }

/-- Whether a command has asked for something under a tag. -/
def State.asked (s : State) (ag : Agent) (tag : Nat) : Bool := (s.result? ag tag).isSome || s.owes ag tag

/-! ## Copies and streams -/

/-- What the write of one more element adds to a command. -/
def Prog.add (p q : Prog) : Prog :=
  { data := p.data, sat := p.sat + q.sat, declined := p.declined ++ q.declined, written := p.written + q.written
    census := match q.census with | none => p.census | some n => minOpt p.census n }

/-- A copy, element by element (R321): as far as it goes now, and whether anything has happened. -/
def State.copyRun (s : State) (c ch : Nat) (i : EngItem) (dst src : BitVec 1024) (shift mode : Nat) :
    Nat → Bool → State × EngItem × Bool
  | 0, went => (s, i, went)
  | n + 1, went =>
    let ar := chanAcc c ch i.asid .copyRead
    let aw := chanAcc c ch i.asid .copyWrite
    let put (s : State) (i : EngItem) (x : Elem) : Asked :=
      s.ask aw i.writeTag i.decl i.key i.rstep [.elem (dBase dst) (dLin dst i.pos) x.1 (fmtWidth (dFmt dst))
        (fmtUnsigned (dFmt dst)) (dFmt dst = 9) shift mode x.2] none
    let next (a : Asked) (i : EngItem) (s : State) : State × EngItem × Bool :=
      match a with
      | .got p decl s1 => s1.copyRun c ch { i with pos := i.pos + 1, prog := i.prog.add p, decl } dst src shift mode n true
      | .went s1 => (s1, i, true)
      | .still => (s, i, went)
    if s.asked aw.agent i.writeTag then next (put s i (0, false)) i s
    else if s.heldBack c (.ch ch) i then (s, i, went)
    else match s.askRead ar i.readTag i.decl (plainParts (descParts src i.pos)) with
      | .got p decl s1 =>
        let j := { i with decl }
        next (put s1 j (descValue src i.pos p.data.flatten)) j s1
      | .went s1 => (s1, i, true)
      | .still => (s, i, went)

/-- The update of a descriptor by the write with place `upd` in issue order (R98, R99). -/
def State.descUpdate (s : State) (c x dn upd : Nat) (es : Int) (shift : Nat) (cen : Option Nat) (written sats : Nat) : State :=
  s.onCtx c x fun k =>
    let u := dUpdate (k.dAt dn) es shift cen written
    (({ k with d := k.d.set dn u.1, descPend := k.descPend.filter fun p => p ≠ (dn, upd) } : Ctx).count sats).clamped u.2

/-- A CPY or lx.cpy. -/
def State.runCopy (s : State) (c ch : Nat) (i : EngItem) (dst src : BitVec 1024) (dn : Option Nat) (shift mode : Nat)
    (es : Int) : Option State :=
  let e := Engine.ch ch
  let live := s.sameTask c i.ctx i.task
  let turn : Bool := match dn with | some n => !live || s.descFirst c i.ctx n i.after | none => true
  let r := s.copyRun c ch i dst src shift mode (dCount src - i.pos) false
  let d := r.2.1.prog
  if r.2.1.pos < dCount src then if r.2.2 then some (r.1.putItem c e r.2.1) else none
  else if turn then
    let s2 := match dn with
      | some n => if live then r.1.descUpdate c i.ctx n i.after es shift d.census d.written d.sat else r.1
      | none => r.1.countFor c i d.sat
    some (s2.finishItem c e i (!d.declined.isEmpty))
  else if r.2.2 then some (r.1.putItem c e r.2.1) else none

/-- What a copy command reads of element `j` of its source: a VQ2 source of a CPYM with its block byte (R107, R300). -/
def cpymParts (src : BitVec 1024) (j : Nat) : List (Nat × Nat) :=
  plainParts (descParts src j) ++ if dFmt src = 9 then [(dSide src + blockOf src j, 1)] else []

/-- The elements that these bytes give the stream: those of a VQ2 source are decoded. -/
def cpymElems (st : Stream) (src : BitVec 1024) (j : Nat) (bs : List (Byte × Bool)) : List Elem :=
  if dFmt src = 9 then vqElems st.table (gotNat (bs.take 2)) (gotNat (bs.drop 2)) (gotPoison bs) else [descValue src j bs]

/-- Groups a list by the lengths given. -/
def groupBy {α : Type} : List Nat → List α → List (List α)
  | [], _ => []
  | n :: r, l => l.take n :: groupBy r (l.drop n)

/-- The elements of a CPYM reach its stream; the follow-on comes after (R322). -/
def State.runCpym (s : State) (c ch : Nat) (i : EngItem) (q : Nat) (src : BitVec 1024) (op ext : Nat) : Option State :=
  let a := chanAcc c ch i.asid .copyRead
  let js := List.range (dCount src)
  let st := s.strm c i.ctx q
  if st.room < dCount src * (if dFmt src = 9 then 8 else 1) then none
  else match s.askRead a i.readTag i.decl (js.flatMap (cpymParts src)) with
    | .still => none
    | .went s1 => some s1
    | .got p _ s1 =>
      let bs := groupBy (js.map fun j => (cpymParts src j).length) p.data
      let es := (js.zip bs).flatMap fun y => cpymElems st src y.1 y.2.flatten
      some ((s1.setStrm c i.ctx q (st.append es 0)).setItem c (.ch ch) i (.cpym q src op ext true))

/-- The feeder of a read stream completes when it has read everything, or has been freed (R132, R307). -/
def State.runRead (s : State) (c ch : Nat) (i : EngItem) (q : Nat) (own : Option Stream) : Option State :=
  let st := own.getD (s.strm c i.ctx q)
  if own.isSome || st.next ≥ st.total then some ((s.countFor c i st.sats).finishItem c (.ch ch) i false) else none

/-- The drain of a write stream writes what is buffered, and completes when everything is written (R302). -/
def State.runWrite (s : State) (c ch : Nat) (i : EngItem) (q : Nat) (own : Option Stream) : Option State :=
  let e := Engine.ch ch
  let st := own.getD (s.strm c i.ctx q)
  let put (s : State) (i : EngItem) (st : Stream) : State :=
    match own with
    | some _ => s.setItem c e i (.streamWr q (some st))
    | none => (s.putItem c e i).setStrm c i.ctx q st
  if s.asked (.engine c e) i.writeTag || st.drainable then
    let d := if s.asked (.engine c e) i.writeTag then ([], st) else st.drain
    match s.ask (chanAcc c ch st.asid .copyWrite) i.writeTag i.decl st.key st.rstep d.1 none with
    | .still => none
    | .went s1 => some (put s1 i d.2)
    | .got p decl s1 => some (put s1 { i with decl } (d.2.wroteOut p))
  else if st.closing || st.next ≥ st.total then
    if !s.sameTask c i.ctx i.task then some (s.finishItem c e i st.bad)
    else if s.descFirst c i.ctx st.dn st.upd then
      some ((s.descUpdate c i.ctx st.dn st.upd st.es st.shift st.cen st.wrote st.sats).finishItem c e i st.bad)
    else none
  else none

/-! ## The grid unit (R145-R156) -/

/-- A grid descriptor: dimensions, levels, feature width, bases, level records (N, LT, TOFF). -/
structure Grid where
  d : Nat
  f : Nat
  tbase : Nat
  gbase : Nat
  levels : List (Nat × Nat × Nat)

/-- The image of a grid descriptor; none when it is malformed (R145, R146). -/
def gridOf (gd : Nat) (bs : List Byte) : Option Grid :=
  let word (i : Nat) : Nat := leNat ((bs.drop (8 * i)).take 8)
  let w0 := word 0
  let n := fld w0 4 4 + 1
  let recs := (List.range n).map fun l => (word (4 + 2 * l), word (5 + 2 * l))
  let okRec (r : Nat × Nat) : Bool :=
    1 ≤ fld r.1 0 21 && fld r.1 0 21 ≤ 2 ^ 20 && 8 ≤ fld r.1 21 5 && fld r.1 21 5 ≤ 24 && fld r.1 26 6 = 0 &&
      fld r.1 40 24 = 0 && fld r.2 32 32 = 0
  let baseOk (b : Nat) : Bool := b % 64 = 0 && b < 2 ^ 47
  if gd % 32 = 0 && !bit w0 3 && fld w0 10 54 = 0 && fld (word 1) 56 8 = 0 && fld (word 2) 56 8 = 0 && word 3 = 0 &&
      baseOk (word 1) && baseOk (word 2) && recs.all okRec then
    some { d := fld w0 0 3 + 1, f := 2 ^ fld w0 8 2, tbase := word 1, gbase := word 2
           levels := recs.map fun r => (fld r.1 0 21, fld r.1 21 5, fld r.2 0 32) }
  else none

/-- The constants P_i of R149. -/
def gridP : List Nat :=
  [0x00000001, 0x6C8E9CF5, 0xB5E73A69, 0x8A5F2D13, 0xD1B347C9, 0xE3C15A97, 0xA7F312CD, 0xC9E56B3F]

/-- The entry of a corner (R149). -/
def gridEntry (n lt : Nat) (a : List Nat) : Nat :=
  if (n + 1) ^ a.length ≤ 2 ^ lt then ((a.zipIdx).map fun p => p.1 * (n + 1) ^ p.2).sum
  else ((a.zip gridP).foldl (fun h p => h ^^^ (p.1 * p.2 % 2 ^ 32)) 0) % 2 ^ lt

/-- The corners of a level for a query: entry and weight, in increasing k (R148, R150). -/
def gridCorners (n lt : Nat) (xs : List Nat) : List (Nat × Nat) :=
  (List.range (2 ^ xs.length)).map fun k =>
    let cs := xs.zipIdx.map fun (x, i) => (x * n / 2 ^ 16 + (if bit k i then 1 else 0), x * n % 2 ^ 16, bit k i)
    (gridEntry n lt (cs.map (·.1)),
     cs.foldl (fun wt p => (wt * (if p.2.2 then p.2.1 else 65536 - p.2.1) + 32768) / 2 ^ 16) 65536)

/-- The coordinates of a query. -/
def gridQuery (g : Grid) (v : Vec) : List Nat := (List.range g.d).map (laneBits 16 v)

/-- Address of feature f of entry e of a level in tables of `size`-byte elements (R147). -/
def gridAddr (base size fw toff e f : Nat) : Nat := base + size * (fw * (toff + e) + f)

def gridAcc (c asid : Nat) (kind : AccKind) (need : Option Nat) : Acc := { agent := .engine c .grid, kind, asid, need }

/-- The result lanes of a gather with their poison (R150, R155). -/
def gridLanes (g : Grid) (v : Vec) (rd : Nat → Int × Bool) : List (Int × Bool) :=
  g.levels.flatMap fun (n, lt, toff) =>
    let cs := gridCorners n lt (gridQuery g v)
    (List.range g.f).map fun f =>
      let ts := cs.map fun (e, wt) => let t := rd (gridAddr g.tbase 2 g.f toff e f); ((wt : Int) * t.1, t.2)
      (sat (((ts.map (·.1)).sum + 32768) / 2 ^ 16) 32, ts.any (·.2))

/-- The adds of a scatter: address, addend, dropped when the lane is poisoned (R152, R155). -/
def gridAdds (g : Grid) (v : Vec) (grad : Nat → Int × Bool) : List (Nat × Int × Bool) :=
  g.levels.zipIdx.flatMap fun ((n, lt, toff), l) =>
    (gridCorners n lt (gridQuery g v)).flatMap fun (e, wt) =>
      (List.range g.f).map fun f =>
        let x := grad (l * g.f + f)
        (gridAddr g.gbase 8 g.f toff e f, (wt : Int) * x.1, x.2)

/-- The two data of a gather on their way to their landings. -/
def State.gridLand (s : State) (c : Nat) (i : EngItem) (req : Nat) (v0 : Vec) (p0 : Bool) (v1 : Vec) (p1 : Bool) : State :=
  let r0 : Reply := { id := req, core := c, x := i.ctx, val := v0, poison := p0, sat := 0 }
  let r1 : Reply := { id := req + 1, core := c, x := i.ctx, val := v1, poison := p1, sat := 0 }
  { s with replies := s.replies ++ [r0, r1] }.setItem c .grid i (.landing req)

/-- The grid descriptor that a command read as it issued (R156): none when it is malformed, or a byte of what its header
counts is declined or poisoned (R146, R155, log entry 29). -/
def gridDesc (gd : Nat) (bs : List (Byte × Bool)) : Option Grid :=
  let n := 32 + 16 * (fld (gotNat (bs.take 1)) 4 4 + 1)
  if gd % 32 ≠ 0 || gotPoison (bs.take n) then none else gridOf gd (bs.map (·.1))

/-- GRIDLD. Where no descriptor is read, both registers land poisoned; R146 gives their bits no value, so these are free
values (log entry 57). -/
def State.runGridld (s : State) (c : Nat) (i : EngItem) (gd : Nat) (img : List (Byte × Bool)) (coords : Vec) (req : Nat)
    (poison : Bool) (d1 : Dest) : Option State :=
  match gridDesc gd img with
  | none =>
    let s1 := s.draw.2.draw.2
    some (s1.gridLand c i req (Config.lostValue s.fresh) true (Config.lostValue (s.fresh + 1)) true)
  | some g =>
    let a := gridAcc c i.asid .load (some 1)
    let ps : List (Nat × Nat) := g.levels.flatMap fun (n, lt, toff) =>
      (gridCorners n lt (gridQuery g coords)).flatMap fun (e, _) =>
        (List.range g.f).map fun f => (gridAddr g.tbase 2 g.f toff e f, 2)
    match s.askRead a i.readTag [] ps with
    | .still => none
    | .went s1 => some s1
    | .got p _ s1 =>
      let tab := ps.zip p.data
      let rd (va : Nat) : Int × Bool :=
        let bs := ((tab.find? fun t => t.1.1 = va).map (·.2)).getD []
        (sx (gotNat bs : Nat) 16, gotPoison bs)
      let ls := gridLanes g coords rd
      let old := match d1 with | .v n => (s.ctx c i.ctx).vAt n | _ => {}
      let lo := ls.take 64
      let hi := ls.drop 64
      let v (l : List (Int × Bool)) : Vec := ofLanes 32 (l.map (·.1))
      let p (l : List (Int × Bool)) : Bool := poison || l.any (·.2)
      if ls.length > 64 then some (s1.gridLand c i req (v lo) (p lo) (v hi) (p hi))
      else some (s1.gridLand c i req (v lo) (p lo) old.val old.poison)

/-- GRIDSC: each add is a tracked write of its own (R136, R152). -/
def State.runGridsc (s : State) (c : Nat) (i : EngItem) (gd : Nat) (img : List (Byte × Bool)) (coords g0 g1 : Vec)
    (p p0 p1 : Bool) : Option State :=
  match (if p then none else gridDesc gd img) with
  | none => some (s.finishItem c .grid i true)
  | some g =>
    let grad (m : Nat) : Int × Bool := if m < 64 then (lane 32 g0 m, p0) else (lane 32 g1 (m - 64), p1)
    let all := gridAdds g coords grad
    let adds := all.filter fun x => !x.2.2
    match s.ask (gridAcc c i.asid .gridAdd none) i.readTag [] 0 0 (adds.map fun x => .add x.1 x.2.1) none with
    | .still => none
    | .went s1 => some s1
    | .got r _ s1 => some (s1.finishItem c .grid i (!r.declined.isEmpty || r.poisoned || adds.length < all.length))

/-! ## Fabric sources (R325, R380, R382) -/

/-- LEN of a packet: its payload in units of 64 bytes (R380). -/
def payloadUnits : Payload → Nat
  | .put p => (p.data.length + 63) / 64
  | .putPart p _ _ => (p.data.length + 63) / 64
  | .getData _ _ _ d => (d.length + 63) / 64
  | .dataPart _ _ _ _ _ d => (d.length + 63) / 64
  | .piece _ _ _ _ vs => (8 * vs.length + 63) / 64
  | .result _ _ vs => (8 * vs.length + 63) / 64
  | .access _ _ _ _ _ d _ => ((d.getD []).length + 63) / 64
  | .answer _ _ bs _ _ => (bs.length + 63) / 64
  | _ => 0

/-- What a packet takes of a retry buffer: header and payload (log entry 42). -/
def packetBytes (p : Packet) : Nat := 16 + 64 * p.len

/-- What a die's retry buffer holds. -/
def Die.retryBytes (d : Die) : Nat := (d.send.map fun q => (q.2.retry.map packetBytes).sum).sum

/-- Sends a packet of CLASS 0, 1 or 3 from a die: numbered, kept in the retry buffer; none when the window is closed or
the die's buffer of 2 MiB is full (R382). -/
def State.sendPacket (s : State) (die cls dst : Nat) (cmb : Bool) (body : Payload) : Option State :=
  let st := (s.die die).send.get dst {}
  let n := (st.last + 1) % 2 ^ 32
  let p : Packet := { daymark := s.fabric.daymark, cls, cmb, dst, src := s.fabric.coords, sdie := die, eseq := n, body, len := payloadUnits body }
  if (st.last + 2 ^ 32 - st.acked) % 2 ^ 32 ≥ 1024 || 2 ^ 21 < (s.die die).retryBytes + packetBytes p then none
  else
    let s1 := s.onDie die fun d => { d with send := d.send.set dst { st with last := n, retry := st.retry ++ [p] } }
    some { s1 with fabric := { s1.fabric with out := s1.fabric.out ++ [p] } }

/-- Sends a packet, or leaves it waiting at its source until acknowledgements open the window. -/
def State.queuePacket (s : State) (die cls dst : Nat) (cmb : Bool) (body : Payload) : State :=
  (s.sendPacket die cls dst cmb body).getD
    { s with fabric := { s.fabric with wait := s.fabric.wait ++ [(die, cls, dst, cmb, body)] } }

/-- The places at which `n` bytes are cut into packets of at most 4 KiB (R380). -/
def packetPlaces (n : Nat) : List Nat := (List.range ((n + 4095) / 4096)).map (4096 * ·)

/-- Data cut for packets, each run with its place. -/
def packetRuns (data : List (Byte × Bool)) : List (Nat × List (Byte × Bool)) :=
  (packetPlaces data.length).map fun i => (i, (data.drop i).take 4096)

/-- The packets that carry a put. -/
def putPackets (p : WinPacket) : List Payload :=
  if p.data.length ≤ 4096 then [.put p]
  else (packetRuns p.data).map fun r => .putPart { p with data := r.2 } r.1 p.data.length

/-- The packets that carry the data of a get. -/
def dataPackets (core wp num : Nat) (data : List (Byte × Bool)) : List Payload :=
  if data.length ≤ 4096 then [.getData core wp num data]
  else (packetRuns data).map fun r => .dataPart core wp num r.1 data.length r.2

/-- Sends packets of one request; those after the first wait where they have to. -/
def State.sendAll (s : State) (die cls dst : Nat) : List Payload → Option State
  | [] => some s
  | b :: r => (s.sendPacket die cls dst false b).map fun s1 => r.foldl (fun s b => s.queuePacket die cls dst false b) s1

/-- Sends a window request: to a window of this package at once, else into the fabric. -/
def State.sendWindow (s : State) (c : Nat) (pkg : Nat) (p : WinPacket) (get : Bool) : Option State :=
  if pkg = s.fabric.coords then
    some { s with agenda := s.agenda ++ [.event (if get then .windowGetArrival p else .windowPutArrival p)] }
  else s.sendAll (dieOf c) 0 pkg (if get then [.get p] else putPackets p)

/-- WPUT reads its bytes and sends them; WGET sends its request (R325). -/
def State.runPut (s : State) (c p : Nat) (i : EngItem) (la off win pkg len : Nat) (get : Bool) : Option State :=
  let e := Engine.wp p
  let sent := if get then EngCmd.get la off win pkg len true else EngCmd.put la off win pkg len true
  let mk (data : List (Byte × Bool)) : WinPacket :=
    { win, offset := off, len, data, srcPkg := s.fabric.coords, srcCore := c, srcWp := p, num := i.num }
  if len = 0 then some (s.finishItem c e i false)
  else if get then (s.sendWindow c pkg (mk []) true).map fun s => s.setItem c e i sent
  else
    let a : Acc := { agent := .engine c e, kind := .load, asid := i.asid }
    match s.askRead a i.readTag [] [(la, len)] with
    | .still => none
    | .went s1 => some s1
    | .got p _ s1 => (s1.sendWindow c pkg (mk p.data.flatten) false).map fun s => s.setItem c e i sent

/-- Bytes with their poison as raw pieces, one for each run of equal poison. -/
def rawRuns (va : Nat) : List (Byte × Bool) → List Piece
  | [] => []
  | (b, p) :: r =>
    match rawRuns (va + 1) r with
    | .raw v bs q :: t => if p = q then .raw va (b :: bs) q :: t else .raw va [b] p :: .raw v bs q :: t
    | l => .raw va [b] p :: l

/-- The data of a WGET is written locally (R83, R325). -/
def State.runGot (s : State) (c p : Nat) (i : EngItem) (la : Nat) (data : List (Byte × Bool)) : Option State :=
  let e := Engine.wp p
  match s.ask { agent := .engine c e, kind := .store, asid := i.asid } i.writeTag [] 0 0 (rawRuns la data) none with
  | .still => none
  | .went s1 => some s1
  | .got p _ s1 => some (s1.finishItem c e i (!p.declined.isEmpty))

/-! ## The collective engine (R326, R388) -/

/-- The block of R326; none when it is malformed. -/
def collOf (a : Nat) (bs : List Byte) : Option CollBlk :=
  let f (i n : Nat) : Nat := leNat ((bs.drop i).take n)
  let b := f 20 1
  if a % 32 = 0 && fld b 4 2 ≠ 3 && fld b 6 2 = 0 && f 22 2 < 4096 && f 24 8 = 0 then
    some { src := f 0 8, dst := f 8 8, count := f 16 4, kind := fld b 0 2, op := fld b 2 2, typ := fld b 4 2, root := f 21 1
           group := f 22 2 }
  else none

/-- The reduction of R326 on exact values. -/
def collOp (op : Nat) (x y : Int) : Int :=
  match op with
  | 0 => x + y
  | 1 => max x y
  | 2 => min x y
  | _ => sx ((zx x 64 ^^^ zx y 64 : Nat) : Int) 64

/-- Element-wise reduction of partials, with poison. -/
def addVals (op : Nat) : List (Int × Bool) → List (Int × Bool) → List (Int × Bool)
  | x :: xs, y :: ys => (collOp op x.1 y.1, x.2 || y.2) :: addVals op xs ys
  | [], ys => ys
  | xs, [] => xs

/-- Elements of SRC and DST at a member; a broadcast reads SRC at ROOT only (R388). -/
def collSizes (b : CollBlk) (g : Group) : Nat × Nat :=
  (if b.kind = 1 then g.size * b.count else if b.kind = 3 && g.rank ≠ b.root then 0 else b.count,
   if b.kind = 2 then g.size * b.count else b.count)

/-- A piece of a collective (R389, R390): its chunk and its number, the rank whose elements it holds or where its reduction
ends, its elements. They are numbered in SRC for a reduce-scatter, in DST otherwise. -/
structure CollPiece where
  chunk : Nat
  no : Nat
  owner : Nat
  lo : Nat
  len : Nat
  deriving DecidableEq, Repr

/-- A range of elements in runs of 512: 4 KiB of partials. -/
def runsOf (n : Nat) : List (Nat × Nat) := (List.range ((n + 511) / 512)).map fun q => (512 * q, min 512 (n - 512 * q))

/-- The pieces of a collective. Chunks are 64 KiB of DST (R389); those of a reduce-scatter are numbered member by member. The
sum of a chunk ends at the chunk's number modulo S in a ring, at rank 0 in a tree (log entry 23). -/
def collPieces (b : CollBlk) (g : Group) : List CollPiece :=
  let per := 65536 / 2 ^ b.typ
  let n := b.count
  match b.kind with
  | 1 => (List.range g.size).flatMap fun m => (runsOf n).map fun r =>
      { chunk := m * ((n + per - 1) / per) + r.1 / per, no := r.1 / 512, owner := m, lo := m * n + r.1, len := r.2 }
  | 2 => (runsOf (g.size * n)).flatMap fun r =>
      (List.range ((r.1 + r.2 - 1) / n + 1 - r.1 / n)).map fun j =>
        let m := r.1 / n + j
        let lo := max r.1 (m * n)
        { chunk := r.1 / per, no := r.1 / 512 * 2 ^ 17 + m, owner := m, lo, len := min (r.1 + r.2) ((m + 1) * n) - lo }
  | k => (runsOf n).map fun r =>
      { chunk := r.1 / per, no := r.1 / 512, owner := if k = 3 then b.root else if g.tree then 0 else r.1 / per % g.size
        lo := r.1, len := r.2 }

/-- The key of a piece: group, matching number, chunk, piece (R390). -/
def collKey (b : CollBlk) (k : Nat) (p : CollPiece) : Nat := b.group + 2 ^ 12 * (p.chunk + 2 ^ 64 * (p.no + 2 ^ 64 * k))

/-- The group and the matching number of a message of a collective. -/
def collTag : Payload → Option (Nat × Nat)
  | .piece key _ _ _ _ => some (key % 2 ^ 12, key / 2 ^ 140)
  | .result key _ _ => some (key % 2 ^ 12, key / 2 ^ 140)
  | .collAck g k _ _ => some (g, k)
  | _ => none

/-! Rings and trees (R389). -/

/-- Whether rank `m` is `r` or below it in the tree. -/
def under (r : Nat) : Nat → Nat → Bool
  | 0, m => m = r
  | f + 1, m => m = r || (m ≠ 0 && under r f ((m - 1) / 2))

def Group.below (g : Group) (r : Nat) : List Nat := (List.range g.size).filter (under r 17)
def Group.children (g : Group) : List Nat := [2 * g.rank + 1, 2 * g.rank + 2].filter (· < g.size)

/-- The tree's next rank from here towards `t`. -/
def Group.toward (g : Group) (t : Nat) : Nat := (g.children.find? fun c => under c 17 t).getD ((g.rank - 1) / 2)

/-- Whether a collective reduces. -/
def CollBlk.reduces (b : CollBlk) : Bool := b.kind < 2

/-- Where the reduction of a piece ends, or the data of one starts. -/
def Group.source (g : Group) (b : CollBlk) (p : CollPiece) : Nat := if g.tree && b.reduces then 0 else p.owner

/-- The contributions that this member has to receive for a piece before it adds its own: those of the members before it in
the ring, or below it in the tree. -/
def Group.expects (g : Group) (p : CollPiece) : Nat :=
  if g.tree then (g.below g.rank).length - 1 else (g.rank + g.size - (p.owner + 1) % g.size) % g.size

/-- The rank to which a member passes partials. -/
def Group.up (g : Group) : Nat := if g.tree then (g.rank - 1) / 2 else (g.rank + 1) % g.size

/-- The ranks to which a member passes the final values of a piece. -/
def Group.passTo (g : Group) (b : CollBlk) (p : CollPiece) : List Nat :=
  let src := g.source b p
  if b.kind = 1 then (if g.tree && g.rank ≠ p.owner then [g.toward p.owner] else [])
  else if g.tree then
    ((if g.rank = 0 then [] else [(g.rank - 1) / 2]) ++ g.children).filter fun r => g.rank = src || r ≠ g.toward src
  else if (g.rank + 1) % g.size = src then [] else [(g.rank + 1) % g.size]

/-- The ranks that write a piece to their DST. -/
def Group.writers (g : Group) (b : CollBlk) (p : CollPiece) : List Nat :=
  if b.kind = 1 then [p.owner] else List.range g.size

/-! What a member does. -/

def CollRun.part (r : CollRun) (p : CollPiece) : CollPart := r.parts.get (collKey r.blk r.k p) {}
def CollRun.onPart (r : CollRun) (p : CollPiece) (f : CollPart → CollPart) : CollRun :=
  { r with parts := r.parts.set (collKey r.blk r.k p) (f (r.part p)) }

/-- Partials join a piece. -/
def CollPart.join (q : CollPart) (op : Nat) (vals : List (Int × Bool)) : CollPart :=
  { q with vals := if q.vals.isEmpty then vals else addVals op q.vals vals }

/-- A message is taken: the destination reduces partials; those of a run that a restart has ended are dropped (R389). -/
def CollRun.takes (r : CollRun) : Payload → CollRun
  | .piece key op ncon run vals =>
    if run ≠ r.run then r
    else
      let q := (r.parts.get key {}).join op vals
      { r with parts := r.parts.set key { q with ncon := q.ncon + ncon } }
  | .result key run vals =>
    if run ≠ r.run then r else { r with parts := r.parts.set key { r.parts.get key {} with result := some vals } }
  | .collAck _ _ chunk rank => { r with acks := r.acks.set chunk (insSorted (r.acks.get chunk []) rank) }
  | _ => r

/-- Whether every member that writes a piece has acknowledged its chunk. -/
def CollRun.over (r : CollRun) (g : Group) (p : CollPiece) : Bool :=
  (g.writers r.blk p).all ((r.acks.get p.chunk []).contains ·)

/-- The pieces of a collective whose chunks are not over. -/
def CollRun.open_ (r : CollRun) (g : Group) : List CollPiece := (collPieces r.blk g).filter fun p => !r.over g p

/-- The place of a piece in SRC and in DST. -/
def CollBlk.srcAt (b : CollBlk) (p : CollPiece) : Nat := if b.kind = 2 then p.lo - p.owner * b.count else p.lo
def CollBlk.dstAt (b : CollBlk) (p : CollPiece) : Nat := if b.kind = 1 then p.lo - p.owner * b.count else p.lo

/-- Whether this member has still to read its own elements of a piece. -/
def CollRun.lacksOwn (r : CollRun) (g : Group) (p : CollPiece) : Bool :=
  !(r.part p).own && (r.blk.reduces || g.rank = p.owner)

/-- Its own elements join a piece. -/
def CollRun.addOwn (r : CollRun) (p : CollPiece) (vals : List (Int × Bool)) : CollRun :=
  r.onPart p fun q =>
    if r.blk.reduces then { q.join r.blk.op vals with own := true } else { q with own := true, result := some vals }

/-- What element i of DST receives for the exact value `x` (R388): saturated to TYPE, or for xor its low bits; a block as it
stands; and whether saturation changed it. -/
def CollBlk.final (b : CollBlk) (x : Int) : Int × Nat :=
  let bits := 8 * 2 ^ b.typ
  if !b.reduces then (x, 0)
  else if b.op = 3 then (sx (zx x bits : Nat) bits, 0)
  else (sat x bits, if sat x bits = x then 0 else 1)

/-- A message of a collective leaves for a rank (R380, CLASS 3); only reduction packets may be combined (R390). -/
def State.collSend (s : State) (g : Group) (m : Payload) (cmb : Bool) (rank : Nat) : State :=
  s.queuePacket 0 3 (g.list.getD rank 0) cmb m

/-- A piece that has all that it waits for here is passed on: its partials with this member's, or, at the end of the
reduction, its final values are known. -/
def State.collFold (s : State) (g : Group) (r : CollRun) (p : CollPiece) : Option (State × CollRun) :=
  let q := r.part p
  if !(r.blk.reduces && q.own && !q.sent && q.result.isNone && q.ncon = g.expects p) then none
  else if g.rank = g.source r.blk p then some (s, r.onPart p fun q => { q with result := some q.vals })
  else some (s.collSend g (.piece (collKey r.blk r.k p) r.blk.op (q.ncon + 1) r.run q.vals) g.cmb g.up,
             r.onPart p fun q => { q with sent := true, own := true })

/-- Final values are passed along the ring or the tree once. -/
def State.collPass (s : State) (g : Group) (r : CollRun) (p : CollPiece) : Option (State × CollRun) :=
  match (r.part p).result with
  | none => none
  | some vals =>
    if (r.part p).told then none
    else some ((g.passTo r.blk p).foldl (fun s m => s.collSend g (.result (collKey r.blk r.k p) r.run vals) false m) s,
               r.onPart p fun q => { q with told := true })

/-- A piece has been written: with the last one of its chunk the member acknowledges the chunk to all the others (R389). -/
def State.collWrote (s : State) (g : Group) (r : CollRun) (p : CollPiece) : State × CollRun :=
  let r1 := { r.onPart p fun q => { q with written := true } with writing := none }
  let mine := (collPieces r.blk g).filter fun q => q.chunk = p.chunk && (g.writers r.blk q).contains g.rank
  if mine.all fun q => (r1.part q).written then
    (((List.range g.size).filter (· ≠ g.rank)).foldl (fun s m => s.collSend g (.collAck r.blk.group r.k p.chunk g.rank) false m) s,
     r1.takes (.collAck r.blk.group r.k p.chunk g.rank))
  else (s, r1)

/-- Whether the collectives started on a group have all completed (R387). -/
def State.groupIdle (s : State) (g : Nat) : Bool :=
  !(s.coll.queue.any fun i => match i.cmd with | .collRun r => r.blk.group = g | _ => false)

/-- A COLL starts: its block, its group, its matching number; a mismatch or an overlap ends it poisoned (R326, R388). -/
def State.startColl (s : State) (c : Nat) (i : EngItem) (blk : Nat) : Option State :=
  match s.askRead { agent := .engine c .coll, kind := .load, asid := i.asid } i.readTag [] [(blk, 32)] with
  | .still => none
  | .went s1 => some s1
  | .got p _ s1 =>
    let bs := p.data.flatten
    match (if gotPoison bs then none else collOf blk (bs.map (·.1))) with
    | none => some (s1.finishItem c .coll i true)
    | some b =>
      match (s1.groups.find? fun p => p.1 = b.group).map (·.2) with
      | none => some (s1.finishItem c .coll i true)
      | some g =>
        let k := g.started + 1
        let s2 : State := { s1 with fresh := s1.fresh + 1, groups := s1.groups.set b.group { g with started := k } }
        let z := collSizes b g
        let w := 2 ^ b.typ
        let overlap := decide (0 < z.1 ∧ 0 < z.2 ∧ b.src < b.dst + z.2 * w ∧ b.dst < b.src + z.1 * w)
        if overlap || !Config.collMatch s1.fresh then some (s2.finishItem c .coll i true)
        else some (s2.setItem c .coll i (.collRun { blk := b, k, run := s1.fabric.daymark }))

/-- The message of a collective that it takes next. -/
def State.collMail (s : State) (r : CollRun) : Option Payload :=
  s.fabric.pieces.find? fun m => collTag m = some (r.blk.group, r.k)

/-- Writes a piece of DST, or takes what the write has come to. -/
def State.collWrite (s : State) (c : Nat) (i : EngItem) (g : Group) (r : CollRun) (p : CollPiece) : Option State :=
  match (r.part p).result with
  | none => none
  | some vals =>
    let b := r.blk
    let vs := vals.map fun v => (b.final v.1, v.2)
    let es := vs.zipIdx.map fun v => Piece.elem b.dst ((b.dstAt p + v.2 : Nat) : Int) v.1.1.1 (8 * 2 ^ b.typ) false false 0 0 v.1.2
    match s.ask { agent := .engine c .coll, kind := .store, asid := i.asid } i.writeTag i.decl i.key i.rstep es none with
    | .still => none
    | .went s1 => some (s1.putItem c .coll { i with cmd := .collRun { r with writing := some (collKey b r.k p) } })
    | .got d decl s1 =>
      let r1 := r.onPart p fun q => { q with sat := d.sat + (vs.map (·.1.2)).sum }
      let x := s1.collWrote g r1 p
      some (x.1.putItem c .coll { i with cmd := .collRun x.2, decl, prog := i.prog.add { d with sat := 0 } })

/-- Reads this member's elements of a piece. -/
def State.collRead (s : State) (c : Nat) (i : EngItem) (r : CollRun) (p : CollPiece) : Option State :=
  let w := 2 ^ r.blk.typ
  let ps := (List.range p.len).map fun e => (r.blk.src + (r.blk.srcAt p + e) * w, w)
  match s.askRead { agent := .engine c .coll, kind := .load, asid := i.asid } i.readTag i.decl ps with
  | .still => none
  | .went s1 => some s1
  | .got d decl s1 =>
    let vals := d.data.map fun bs => (sx (gotNat bs : Nat) (8 * w), gotPoison bs)
    some (s1.putItem c .coll { i with cmd := .collRun (r.addOwn p vals), decl })

/-- The piece that a member writes next: the one under way, else the first whose final values it has. -/
def CollRun.toWrite (r : CollRun) (g : Group) (l : List CollPiece) : Option CollPiece :=
  match r.writing with
  | some k => (collPieces r.blk g).find? fun p => collKey r.blk r.k p = k
  | none => l.find? fun p => (g.writers r.blk p).contains g.rank && (r.part p).result.isSome && !(r.part p).written

/-- A COLL that has started (R388-R390): it takes what has arrived, passes partials and final values on, writes DST, reads
SRC; it completes when all of its chunks are acknowledged by all members, so that SRC is not read again. -/
def State.runColl (s : State) (c : Nat) (i : EngItem) (r : CollRun) : Option State :=
  match (s.groups.find? fun p => p.1 = r.blk.group).map (·.2) with
  | none => some (s.finishItem c .coll i true)
  | some g =>
    let l := r.open_ g
    let put (x : State × CollRun) : State := x.1.setItem c .coll i (.collRun x.2)
    match s.collMail r with
    | some m => some (put ({ s with fabric := { s.fabric with pieces := s.fabric.pieces.erase m } }, r.takes m))
    | none =>
      if l.isEmpty && r.writing.isNone then
        some ((s.countFor c i (r.parts.map (·.2.sat)).sum).finishItem c .coll i (!i.prog.declined.isEmpty))
      else
        ((((l.findSome? (s.collFold g r)).orElse fun _ => l.findSome? (s.collPass g r)).map put).orElse fun _ =>
          (r.toWrite g l).bind (s.collWrite c i g r)).orElse fun _ =>
          (l.find? (r.lacksOwn g)).bind (s.collRead c i r)

/-- What arrives for a collective waits for it; what is of one that has completed here is dropped. -/
def State.collArrives (s : State) (m : Payload) : State :=
  match collTag m with
  | none => s
  | some (n, k) =>
    let old := s.groups.any fun p => p.1 = n && k ≤ p.2.started
    let runs := s.coll.queue.any fun i => match i.cmd with | .collRun r => r.blk.group = n && r.k = k | _ => false
    if old && !runs then s else { s with fabric := { s.fabric with pieces := s.fabric.pieces ++ [m] } }

/-! ## One event of an engine -/

/-- What a queued command can do now. -/
def State.tryItem (s : State) (e : Engine) (i : EngItem) : Option State :=
  let c := i.core
  if !s.before? c i.ctx i.after then none
  else match e, i.cmd with
    | .ch ch, .copy dst src dn shift mode es => s.runCopy c ch i dst src dn shift mode es
    | .ch ch, .cpym q src op ext false => s.runCpym c ch i q src op ext
    | .ch ch, .streamRd q own => s.runRead c ch i q own
    | .ch ch, .streamWr q own => s.runWrite c ch i q own
    | _, .gridld gd img coords req poison d1 => s.runGridld c i gd img coords req poison d1
    | _, .gridsc gd img coords g0 g1 p p0 p1 => s.runGridsc c i gd img coords g0 g1 p p0 p1
    | _, .landing req =>
      if (s.ctx c i.ctx).pend.any fun p => p.req = req || p.req = req + 1 then none else some (s.finishItem c e i false)
    | .wp p, .put la off win pkg len false => s.runPut c p i la off win pkg len false
    | .wp p, .get la off win pkg len false => s.runPut c p i la off win pkg len true
    | .wp p, .got la data => s.runGot c p i la data
    | _, .coll blk => s.startColl c i blk
    | _, .collRun r => s.runColl c i r
    | _, .bad => some (s.finishItem c e i true)
    | _, _ => none

/-- Whether a queued command holds back every later one of its engine: copies of one channel run in issue order, and so do
commands of the grid unit, up to the landing of a gather, and the starts of collectives (log entry 24). -/
def EngCmd.holds : EngCmd → Bool
  | .copy _ _ _ _ _ _ => true
  | .cpym _ _ _ _ landed => !landed
  | .gridld _ _ _ _ _ _ => true
  | .gridsc _ _ _ _ _ _ _ _ => true
  | .coll _ => true
  | _ => false

/-- The first queued command that can do something: none after one that holds it back, or one before it whose memory its
next step shares (R122). -/
def State.tryQueue (s : State) (e : Engine) : List EngItem → List EngItem → Option State
  | _, [] => none
  | before, i :: r =>
    match (if before.any fun j => j.cmd.holds && i.cmd.holds || s.clash j i then none else s.tryItem e i) with
    | some s' => some s'
    | none => s.tryQueue e (before ++ [i]) r

/-- The next event of an engine; the collective engine keeps one queue for the package. -/
def State.engStep (s : State) (c : Nat) (e : Engine) : Option State :=
  match e with
  | .mx => s.mxStep c
  | _ => s.tryQueue e [] (s.tl c e).queue

def execEngineCompletion (core : Nat) (e : Engine) (s : State) : Out := .next ((s.engStep core e).getD s)

def execStreamElementArrival (core ctx q : Nat) (s : State) : Out := .next ((s.feed core ctx q).getD s)

/-- A CPYM whose data has landed: the first in its channel. -/
def State.landedCpym (s : State) (c ch : Nat) : Option EngItem :=
  ((s.core c).chan ch).queue.find? fun i => match i.cmd with | .cpym _ _ _ _ true => true | _ => false

/-- CPYM_FOLLOW_ON: the copy engine issues the follow-on to the matrix engine (R322). The CPYM's number waits for it. -/
def State.followOn (s : State) (c ch : Nat) : State :=
  match s.landedCpym c ch with
  | none => s
  | some i =>
    match i.cmd with
    | .cpym _ _ op ext _ =>
      let k := s.core c
      let drop (s : State) : State := s.onTl c (.ch ch) fun t => { t with queue := t.queue.filter fun j => j.num ≠ i.num }
      let base (kind : MxKind) : MxCmd := { ctx := i.ctx, task := i.task, kind, chan := some (ch, i.num) }
      let fmt (q : Nat) : Nat := dFmt (s.strm c i.ctx q).desc
      let push (m : MxCmd) : State := (drop s).onCore c fun k => { k with mx := k.mx ++ [m] }
      let load (b qa : Nat) (qb : Option Nat) (west : Bool) : State :=
        let ks := (loadKs qb.isSome (fmt qa)).getD 128
        let needs := match qb with
          | none => [(qa, 128 * ks, ks)]
          | some q => [(qa, 128 * ks, ks), (q, 64 * ks, ks / 2)]
        push { base (if s.sameTask c i.ctx i.task then .load b qb.isSome ks west (fmt qa) else .dead) with needs, got := needs.map fun _ => [] }
      match followOf op ext with
      | some (.mldn t) => load t.d t.a none false
      | some (.mldw t) => load t.d t.a none true
      | some (.mlds t) => load t.d t.a (some t.b) false
      | some (.mrun t) =>
        let x := t.ext.getD 0
        let b := fld x 16 1
        let p := (pairing (k.buf b).fmt (k.buf b).sparse (fmt t.a)).getD (128, 1)
        let rows := (fld x 0 9 + 1) / p.2
        let cx := s.ctx c i.ctx
        push { base (.run t.d (fld x 9 7) rows b none cx.cpatSteps.toNat cx.cpatLen) with
               needs := [(t.a, rows * p.1, p.1)], got := [[]] }
      | _ => (drop s).onTl c (.ch ch) fun t => t.finish i.num false
    | _ => s

def execCpymFollowOn (core ch : Nat) (s : State) : Out := .next (s.followOn core ch)

end Sys2Proof.Machine
end

