-- ==== Sys2Proof/Machine/Pipeline.lean ====
section
/-! DEFINITION. Events of the register pipeline and of accesses in flight: result cycles, landings, bank units, MTUs,
tracked packets, acknowledgements (R27, R28, R45, R62, R66, R137, R141, R162, R214-R217). -/

namespace Sys2Proof.Machine

/-! ## Results and landings -/

/-- FIXED_RESULT: the fixed-latency results whose cycle has come are written (R208, R217). -/
def execFixedResult (core ctx : Nat) (s : State) : Out := .next (s.writeDue core ctx fun p => !p.landed)

/-- LANDING: landings whose cycle has come and whose data is here are written (R214). -/
def execLanding (core ctx : Nat) (s : State) : Out := .next (s.writeDue core ctx fun p => p.landed)

def State.findReply (s : State) (id : Nat) : Option Reply := s.replies.find? fun r => r.id = id

/-- The data reaches the core at or after its landing cycle and is written at once (R62, R215). -/
def State.arriveLate (s : State) (r : Reply) : State := (s.take r).writeDue r.core r.x fun p => p.landed

/-- RETURN_ARRIVAL: early data takes an entry of the landing buffer, or waits at the core's input while it is full;
while one datum waits there the others are held back at their sources (R62, R63). Data at or after its cycle is written
at once. -/
def execReturnArrival (id : Nat) (s : State) : Out :=
  .next (match s.findReply id with
    | none => s
    | some r =>
      if !s.inputFree r then s
      else if s.early r then
        if (s.core r.core).heldEarly < 64 then s.take r
        else { s with replies := s.replies.map fun q => if q.id = r.id then { q with input := true } else q }
      else s.arriveLate r)

/-- LATE_ARRIVAL: data whose landing cycle has passed is written and the frozen domain resumes (R63, R215). -/
def execLateArrival (id : Nat) (s : State) : Out :=
  .next (match s.findReply id with
    | none => s
    | some r => if s.early r || !s.inputFree r then s else s.arriveLate r)

/-- LOSS_COUNT_DUE: a ready context that has lost 254 times loses once more and falls due (R162). -/
def execLossCountDue (core ctx : Nat) (s : State) : Out :=
  .next (if (s.ctx core ctx).status = .ready ∧ (s.ctx core ctx).loss = 254 then
      s.onCtx core ctx fun k => { k with loss := 255 } else s)

/-! ## Accesses at their units -/

def execScratchpadAccess (id : Nat) (s : State) : Out := .next (s.unitAccess id 0)
def execRingAccess (id : Nat) (s : State) : Out := .next (s.unitAccess id 1)
def execMtuAccess (id : Nat) (s : State) : Out := .next (s.unitAccess id 2)

def execTrackedPacketArrival (id : Nat) (s : State) : Out :=
  .next (match s.findReq id with
    | none => s
    | some r => s.packet r)

/-- PAGE_WALK: the entries a walk reads are cached at the serving MTU (R27). -/
def execPageWalk (asid va : Nat) (s : State) : Out := .next (s.fillTlb asid va)

/-! ## Acknowledgements of tracked streams (R137, R141) -/

/-- What the last acknowledgement of a stream on its way carries, or what its source knows. -/
def State.ackSent (s : State) (src home : Nat) : Nat :=
  match (s.acks.filter fun a => a.1 = src ∧ a.2.1 = home).getLast? with
  | some a => a.2.2
  | none => (s.die src).acked.get home 0

/-- APPLIED_ACK_SEND: the home returns APPLIED to a source when it has changed. -/
def execAppliedAckSend (home src : Nat) (s : State) : Out :=
  let n := (s.die home).applied.get src 0
  .next (if s.ackSent src home = n then s else { s with acks := s.acks ++ [(src, home, n)] })

/-- Past-table entries that an acknowledgement covers become 0 (R137). -/
def Ctx.acked (k : Ctx) (home n : Nat) : Ctx :=
  { k with past := k.past.filter fun p => ¬ (p.1 = home ∧ seqGe n p.2) }

/-- APPLIED_ACK_ARRIVAL: ACKED of the source advances; what waited for it may go on. -/
def execAppliedAckArrival (src home : Nat) (s : State) : Out :=
  .next (match s.acks.find? fun a => a.1 = src && a.2.1 = home with
    | none => s
    | some a =>
      let s1 : State := { s with acks := s.acks.erase a }
      let s2 := s1.onDie src fun d =>
        { d with acked := d.acked.set home (if seqGe a.2.2 (d.acked.get home 0) then a.2.2 else d.acked.get home 0) }
      { s2 with cores := s2.cores.map fun p =>
          if dieOf p.1 = src then
            (p.1, { p.2 with ctxs := p.2.ctxs.map fun q => (q.1, q.2.acked home a.2.2) })
          else p })

end Sys2Proof.Machine
end

