-- ==== Sys2Proof/Machine/Task.lean ====
section
/-! DEFINITION. Binding of tasks from the run queue (R49, R56, R61, R158, R159, R164), gangs (R166), delivery of spawns
(R167-R169, R188), starts of helper programs (R330). -/

namespace Sys2Proof.Machine

/-! ## The context of a new task (R158) -/

/-- The G registers at entry. -/
def Entry.regs (e : Entry) : Tab GReg :=
  (e.coords.zipIdx.map fun (w, i) => (i + 1, ({ val := w } : GReg))) ++
    [(9, { val := BitVec.ofNat 64 e.args }), (10, { val := e.g10 }), (11, { val := e.nodeId })]

/-- The context at entry; V0 follows when there are argument bytes to read. -/
def Entry.start (e : Entry) (order cycle : Nat) : Ctx :=
  { status := if e.gang.any (fun g => 1 < g.2) then .held else .ready
    task := some { asid := e.asid, nodeId := e.nodeId, ncc := e.ncc, queue := e.queue, ticket := e.ticket, gang := e.gang
                   spawned := e.spawned, accm := e.accm, order }
    pc := e.entry, g := e.regs, k := [(0, BitVec.allOnes 256)], argWait := decide (0 < e.argLen), startAt := cycle + 16 }

/-! ## TASK_BIND (R164) -/

/-- Whether a tile of a claim is claimed by another task or holds a spilled register (R56, R61). -/
def Core.claimBlocked (k : Core) (accm : Nat) : Bool :=
  (List.range 8).any fun t => bit accm t &&
    ((k.acc.get t {}).claim.isSome || k.spills.any fun e => e.loc < 2048 && e.loc / 256 = t)

/-- Whether a context's V file holds a spilled register of another context (R61). -/
def Core.fileBlocked (k : Core) (x : Nat) : Bool := k.spills.any fun e => 2048 ≤ e.loc && (e.loc - 2048) / 64 = x

def Core.allIdle (k : Core) : Bool := [0, 1, 2, 3].all fun x => !(k.ctx x).busy

/-- The context the head of the run queue binds to now, with the entry and those behind it. -/
def Core.bindable (k : Core) : Option (Nat × Entry × List Entry) :=
  match k.runq with
  | [] => none
  | e :: r =>
    match [0, 1, 2, 3].find? fun x => !(k.ctx x).busy with
    | none => none
    | some x =>
      if e.released && (e.dslots = k.dslots || k.allIdle) && !k.claimBlocked e.accm && !k.fileBlocked x && k.gate = .run then
        some (x, e, r)
      else none

/-- Claimed tiles start at 0, full, unpoisoned (R56). -/
def Core.claimTiles (k : Core) (x accm : Nat) : Core :=
  (List.range 8).foldl (fun k t => if bit accm t then { k with acc := k.acc.set t { claim := some x } } else k) k

/-- A new split: every tag entry is invalidated (R49). -/
def Core.split (k : Core) (n : Nat) : Core :=
  if n = k.dslots then k else { k with dslots := n, tags := k.tags.map fun p => (p.1, p.2 &&& ~~~1) }

/-- The start requests of a binding for the helpers (R330). -/
def Core.askHelpers (k : Core) (x : Nat) (e : Entry) : Core :=
  let req (pc : Nat) : HelperReq :=
    { ctx := x, pc, a0 := BitVec.ofNat 64 (e.args % 2 ^ 32), a1 := BitVec.ofNat 64 (fld e.args 32 24), a2 := e.g10,
      asid := e.asid, nodeId := e.nodeId }
  let add (h : Helper) (o : Option Nat) : Helper :=
    match o with
    | some pc => { h with starts := h.starts ++ [req pc] }
    | none => h
  { k with loader := add k.loader e.lpc, storer := add k.storer e.spc }

/-- Every member of a gang is bound: all become ready, and none issues before 16 c have passed for the last one (R166). Each
member waits for its own argument copy only: R166 does not say that the common cycle waits for every copy (DESIGN CHOICE,
log entry 62). -/
def State.gangReady (s : State) (die : Nat) (g : Nat × Nat) : State :=
  let held := s.cores.flatMap fun p =>
    if dieOf p.1 = die then
      p.2.ctxs.filterMap fun q =>
        if q.2.status = .held ∧ (q.2.task.any fun t => t.gang = some g) then some (p.1, q.1) else none
    else []
  if g.2 ≤ held.length then
    held.foldl (fun s p => s.onCtx p.1 p.2 fun k => { k with status := .ready, startAt := (s.core p.1).cycle + 16 }) s
  else s

/-- The scan record of the physical core notes the binding: DIRTY, DIRTYWIN (R364). -/
def State.markDirty (s : State) (c : Nat) : State :=
  s.onDie (dieOf c) fun d =>
    let n := 5 * (c % 20 / 4) + (d.lp.get (c % 20 / 4) {}).l.getD (c % 4) 0
    let r := d.scan.get n {}
    if r.dirty then d else { d with scan := d.scan.set n { r with dirty := true, dirtywin := s.ck.cur } }

/-- The clock of a core without a task has run on since its last one: by how much is free (R212). -/
def State.idled (s : State) (c : Nat) : State :=
  if (s.core c).allIdle then
    let (n, s1) := s.draw
    s1.onCore c fun k => { k with cycle := k.cycle + Config.idleCycles n }
  else s

/-- TASK_BIND: the head of the run queue binds; its argument bytes are read (R158). A stream that commands of the last
task still use stays with them (R300). -/
def State.bindHead (s : State) (c : Nat) : State :=
  match (s.core c).bindable with
  | none => s
  | some (x, e, r) =>
    let s := s.idled c
    let k := s.core c
    let fresh : Ctx := { e.start k.nextOrder k.cycle with q := (k.ctx x).q.filter fun p => p.2.freed }
    let order := k.nextOrder
    let k1 : Core := (((k.split e.dslots).claimTiles x e.accm).askHelpers x e).setCtx x fresh
    let s1 := (s.markDirty c).setCore c { k1 with
      runq := r, nextOrder := order + 1
      spawnedBound := if e.spawned then k.spawnedBound + 1 else k.spawnedBound }
    let s2 := if e.spawned then s1.onCtx c x fun q =>
        { q with task := q.task.map fun t => { t with ticket := k.spawnedBound + 1 } } else s1
    let s3 := if e.argLen = 0 then s2 else
      { s2 with focus := .ctx c x }.request .load [.read e.args e.argLen] (fun _ => .args c x order) false none
    let s4 : State := { s3 with focus := s.focus }
    match e.gang with
    | some g => s4.gangReady (dieOf c) g
    | none => s4

def execTaskBind (core : Nat) (s : State) : Out := .next (s.bindHead core)

/-! ## Adds to completion pairs (R188) -/

/-- An atomic add that its agent makes at once or waits for: old value and poison. -/
inductive Added
  | ready (old : Nat) (poison : Bool) (s : State)
  | blocked (s : State)

/-- ATOM.add of 64 bits by an agent that waits for it under a tag. -/
def State.addNow (s : State) (ag : Agent) (tag asid va : Nat) (x : Nat) : Added :=
  match s.ask { agent := ag, kind := .atomic, asid } tag [] 0 0 [.read va 8] (some (.add, 8, false, x, none)) with
  | .still => .blocked s
  | .went s1 => .blocked s1
  | .got p _ s1 => .ready (gotNat p.data.flatten) p.poisoned s1

/-! ## SPAWN_DELIVERY (R167-R169) -/

/-- Whether a spawn packet can enter its run queue: it comes after the spawner's earlier accesses, which the release
flushes; the queue has room; the core does not move. -/
def State.spawnReady (s : State) (p : SpawnPkt) : Bool :=
  s.before? p.src.1 p.src.2 p.after && s.flushed (s.ctx p.src.1 p.src.2) (dieOf p.src.1) [] &&
    (s.core p.core).runq.length < 16 && !(s.core p.core).moving && !(s.core p.core).withheld &&
    !(s.offlineOf (dieOf p.core)).getLsbD p.core

/-- Delivers a spawn packet: the add of -1 to COUNT comes first (R188). -/
def State.deliver (s : State) (p : SpawnPkt) : State :=
  match s.addNow (.ctx p.src.1 p.src.2) 1 p.entry.asid p.entry.ncc (2 ^ 64 - 1) with
  | .blocked s' => s'
  | .ready _ _ s1 =>
    let s2 := ({ s1 with spawns := s1.spawns.erase p }).onCore p.core fun k => { k with runq := k.runq ++ [p.entry] }
    s2.onCtx p.src.1 p.src.2 fun k => { k with status := if k.status = .waiting .spawn then .ready else k.status }

/-- Whether the add of a spawn packet is still under way. -/
def State.spawnParked (s : State) (p : SpawnPkt) : Bool := s.owes (.ctx p.src.1 p.src.2) 1

def execSpawnDelivery (s : State) : Out :=
  .next (match s.spawns.find? fun p => s.spawnReady p && !s.spawnParked p with
    | none => s
    | some p => s.deliver p)

/-! ## HELPER_START (R330) -/

def State.helper (s : State) (c : Nat) (st : Bool) : Helper := if st then (s.core c).storer else (s.core c).loader
def State.onHelper (s : State) (c : Nat) (st : Bool) (f : Helper → Helper) : State :=
  s.onCore c fun k => if st then { k with storer := f k.storer } else { k with loader := f k.loader }

/-- The registers at a program's start. -/
def HelperReq.regs (r : HelperReq) : Tab (BitVec 32) :=
  [(10, r.a0.setWidth 32), (11, r.a1.setWidth 32), (12, r.a2.setWidth 32), (13, BitVec.ofNat 32 r.ctx),
   (14, r.nodeId.setWidth 32)]

/-- The first start request of a helper that runs no program. -/
def Helper.begin (h : Helper) : Helper :=
  match h.starts with
  | [] => h
  | r :: rest =>
    if h.running || h.halted then h
    else { h with x := r.regs, pc := r.pc, running := true, ctx := r.ctx, asid := r.asid, starts := rest, xbase := 0
                  sel := none, decl := false }

def execHelperStart (core : Nat) (storer : Bool) (s : State) : Out := .next (s.onHelper core storer Helper.begin)

end Sys2Proof.Machine
end

