-- ==== Sys2Proof/Machine/Bundle.lean ====
section
/-! DEFINITION. Bundles (R197-R206): fetching one, what its words forbid, its issue as a whole (R347), its end
(R202, R218, R247, R248, R350); the merge stage (R160-R163) and one cycle of a core (R213-R216). The meaning of one
operation is an argument, `ex`. -/

namespace Sys2Proof.Machine

abbrev Exec := Instr → State → Out

/-! ## Fetching (R198, R199, R201) -/

/-- A bundle: its address, header fields, operations by slot (none for an illegal one), and the slots it takes. -/
structure Bundle where
  addr : Nat
  words : Nat
  rep : Nat
  rot : Bool
  nomerge : Bool
  ops : List (Nat × Option Instr)
  used : List Nat
  deriving DecidableEq, Repr

inductive Bundled
  | ok (b : Bundle)
  | illegal
  | bad (va : Nat)
  | blocked (s : State)

/-- Branches, calls, returns and loop operations (R199). -/
def branches : Instr → Bool
  | .bra _ => true | .brc _ => true | .brr _ => true | .call _ => true | .callr _ => true | .ret _ => true
  | .loop _ => true | .loopx _ => true | _ => false

/-- Whether a slot word's opcode is one of those, whatever its fields hold (R220), also in s0, where it may not stand: with
REP > 0 the bundle is illegal before the operation is looked at (DESIGN CHOICE, log entry 70). -/
def branchWord (slot w : Nat) : Bool := slot < 2 && 0x80 ≤ fld w 24 8 && fld w 24 8 < 0x88

/-- Whether an operation has an extension word. -/
def longOp (i : Instr) : Bool := (encode i).length = 2

/-- Operations of the coded slots. -/
def codedOps (codes ws : List Nat) : List (Nat × Option Instr) :=
  (cutSlots 0 codes ws).map fun (slot, w, x) => (slot, (decodeSlot slot w x).toOption)

/-- Slots coded 01. -/
def stickySlots (codes : List Nat) : List Nat := (codes.zipIdx.filter fun p => p.1 = 1).map (·.2)

/-- The operation a slot repeats; none when R199 makes the bundle illegal. -/
def stickyOp (k : Ctx) (codes : List Nat) (slot : Nat) : Option (Nat × Option Instr) :=
  match k.sticky.find? fun p => p.1 = slot with
  | none => none
  | some (_, i) => if longOp i && codes.getD (slot + 1) 0 ≠ 0 then none else some (slot, some i)

/-- Inserts by slot. -/
def insSlot (l : List (Nat × Option Instr)) (p : Nat × Option Instr) : List (Nat × Option Instr) :=
  match l with
  | [] => [p]
  | q :: r => if p.1 < q.1 then p :: q :: r else q :: insSlot r p

/-- The bundle from its header and slot words; none when R199 makes it illegal. -/
def bundleOf (k : Ctx) (addr : Nat) (h : Header) (ws : List Nat) : Option Bundle :=
  let st := (stickySlots h.codes).map (stickyOp k h.codes)
  if st.any (·.isNone) then none
  else
    let ops := (st.filterMap id).foldl insSlot (codedOps h.codes ws)
    if 0 < h.rep ∧ ((ops.any fun p => match p.2 with | some i => branches i | none => false) ∨
        (cutSlots 0 h.codes ws).any fun p => branchWord p.1 p.2.1) then none
    else
      let wide := ops.filterMap fun p => match p.2 with
        | some i => if h.codes.getD p.1 0 = 1 ∧ longOp i then some (p.1 + 1) else none
        | none => none
      let coded := (h.codes.zipIdx.flatMap fun p => if p.1 = 3 then [p.2, p.2 + 1] else if p.1 = 0 then [] else [p.2])
      some { addr, words := h.words, rep := h.rep, rot := h.rot, nomerge := h.nomerge, ops, used := coded ++ wide }

/-- The next bundle of the context in focus. -/
def State.bundle (s : State) : Bundled :=
  let k := s.cur
  match s.fetchWords s.focus k.asid k.pc 1 with
  | .bad a => .bad a
  | .blocked s' => .blocked s'
  | .ok ws =>
    match decodeHeader (ws.headD 0) with
    | none => .illegal
    | some h =>
      match s.fetchWords s.focus k.asid (k.pc + 4) (h.words - 1) with
      | .bad a => .bad a
      | .blocked s' => .blocked s'
      | .ok ws =>
        match bundleOf k k.pc h ws with
        | some b => .ok b
        | none => .illegal

/-! ## What the words of a bundle forbid (R206, R247, R274, R350) -/

/-- Destination registers of an operation, resolved under the bases before the bundle. -/
def State.destsOf (s : State) : Instr → List Dest
  | .add t => [s.dg t.d] | .sub t => [s.dg t.d] | .mul t => [s.dg t.d] | .mulh t => [s.dg t.d] | .mulhn t => [s.dg t.d]
  | .and t => [s.dg t.d] | .or t => [s.dg t.d] | .xor t => [s.dg t.d] | .andn t => [s.dg t.d] | .min t => [s.dg t.d]
  | .minn t => [s.dg t.d] | .max t => [s.dg t.d] | .maxn t => [s.dg t.d] | .abs t => [s.dg t.d] | .mov t => [s.dg t.d]
  | .shl t => [s.dg t.d] | .shr t => [s.dg t.d] | .sar t => [s.dg t.d] | .rol t => [s.dg t.d] | .clz t => [s.dg t.d]
  | .ctz t => [s.dg t.d] | .popc t => [s.dg t.d] | .ext t => [s.dg t.d] | .ins t => [s.dg t.d] | .sel t => [s.dg t.d]
  | .shrn t => [s.dg t.d] | .shrs t => [s.dg t.d] | .sats t => [s.dg t.d] | .divf t => [s.dg t.d]
  | .remf t => [s.dg t.d] | .rnd t => [s.dg t.d] | .callr t => [s.dg t.d] | .tlook t => [s.dg t.d]
  | .tset t => [s.dg t.d] | .tclr t => [s.dg t.d] | .tinv t => [s.dg t.d] | .mpois t => [s.dg t.d]
  | .sbind t => [s.dg t.d] | .sstat t => [s.dg t.d] | .dget t => [s.dg t.d] | .dgetf t => [s.dg t.d]
  | .cpy t => [s.dg t.d] | .gridsc t => [s.dg t.d] | .wput t => [s.dg t.d] | .wget t => [s.dg t.d]
  | .coll t => [s.dg t.d] | .vmovg _ t => [s.dg t.d] | .atom _ _ _ t => [s.dg t.d] | .cas _ _ t => [s.dg t.d]
  | .addi t => [s.dg t.d] | .andi t => [s.dg t.d] | .ori t => [s.dg t.d] | .xori t => [s.dg t.d] | .movi t => [s.dg t.d]
  | .shli t => [s.dg t.d] | .shri t => [s.dg t.d] | .sari t => [s.dg t.d] | .readt t => [s.dg t.d]
  | .csrr t => [s.dg t.d] | .ld _ t => [s.dg t.d] | .lda _ _ t => [s.dg t.d] | .bara t => [s.dg t.d]
  | .rcpn t => [s.dg t.d, s.dg (t.d + 1)] | .rsqn t => [s.dg t.d, s.dg (t.d + 1)]
  | .call _ => [.g 31]
  | .cmp _ t => [s.dp t.d] | .cmpi _ t => [s.dp t.d] | .pand t => [s.dp t.d] | .por t => [s.dp t.d]
  | .pxor t => [s.dp t.d] | .pnot t => [s.dp t.d] | .spill t => [s.dp t.d] | .lsupd t => [s.dp t.d]
  | .unspill t => [s.spillDest t.b t.d]
  | .vld t => [s.dv t.d] | .vlds t => [s.dv t.d] | .gridld t => [s.dv t.d, s.dv (t.d + 1)]
  | .vadd _ t => [s.dv t.d] | .vsub _ t => [s.dv t.d] | .vadds _ t => [s.dv t.d] | .vsubs _ t => [s.dv t.d]
  | .vmul _ t => [s.dv t.d] | .vmulh _ t => [s.dv t.d] | .vmulsh _ t => [s.dv t.d] | .vmac _ t => [s.dv t.d]
  | .vmin _ t => [s.dv t.d] | .vmax _ t => [s.dv t.d] | .vabs _ t => [s.dv t.d] | .vneg _ t => [s.dv t.d]
  | .vand _ t => [s.dv t.d] | .vor _ t => [s.dv t.d] | .vxor _ t => [s.dv t.d] | .vnot _ t => [s.dv t.d]
  | .vshl _ t => [s.dv t.d] | .vshr _ t => [s.dv t.d] | .vsar _ t => [s.dv t.d] | .vshrs _ t => [s.dv t.d]
  | .vshrn _ t => [s.dv t.d] | .vsat _ t => [s.dv t.d] | .vwid _ t => [s.dv t.d] | .vpack _ t => [s.dv t.d]
  | .vsel _ t => [s.dv t.d] | .vbcast _ t => [s.dv t.d] | .vperm _ t => [s.dv t.d] | .vshuf _ t => [s.dv t.d]
  | .vrot _ t => [s.dv t.d] | .vins _ t => [s.dv t.d] | .vredadd _ t => [s.dv t.d] | .vredmax _ t => [s.dv t.d]
  | .vredmin _ t => [s.dv t.d] | .vcensus _ t => [s.dv t.d] | .vexp2 _ t => [s.dv t.d] | .vlut _ t => [s.dv t.d]
  | .vhad _ t => [s.dv t.d] | .vcbdec _ t => [s.dv t.d] | .vclz _ t => [s.dv t.d] | .viota _ t => [s.dv t.d]
  | .vcmp _ _ t => [.k t.d] | .kand t => [.k t.d] | .kor t => [.k t.d] | .knot t => [.k t.d]
  | .mrun t => [.acc t.d] | .mclr t => [.acc t.d] | .maccmv t => [.acc t.d]
  | .mdrain t =>
    let x := t.ext.getD 0
    (if bit x 0 then (List.range (2 * (fld x 19 7 + 1))).map fun i => s.dv (t.d + i) else []) ++
      (if bit x 26 then [.acc t.a] else [])
  | .cpym t => [s.dg t.d]
  | _ => []

/-- Whether an operation breaks a limit that depends on the bundle that holds it. -/
def misplaced (i : Instr) (words rep : Nat) : Bool :=
  match i with
  | .loop t => t.imm < words
  | .loopx t => t.imm < words
  | .endTask _ => 0 < rep
  | .tret _ => 0 < rep
  | _ => false

/-- Makes illegal the operations that the bundle forbids: misplaced ones, and the higher of two that name one
destination. -/
def State.checkOps (s : State) (words rep : Nat) (seen : List Dest) : List (Nat × Option Instr) → List (Nat × Option Instr)
  | [] => []
  | (slot, none) :: r => (slot, none) :: s.checkOps words rep seen r
  | (slot, some i) :: r =>
    let ds := (s.destsOf i).filter fun d => !d.discards
    if misplaced i words rep || ds.any seen.contains then (slot, none) :: s.checkOps words rep (seen ++ ds) r
    else (slot, some i) :: s.checkOps words rep (seen ++ ds) r

/-! ## Issue (R347) -/

/-- One operation in a bundle. -/
def runOp (ex : Exec) (s : State) (p : Nat × Option Instr) : State :=
  match p.2 with
  | none => s.illegal p.1
  | some i =>
    match ex i s with
    | .next s' => s'
    | _ => s.illegal p.1

/-- The operations one after the other, none when one of them no longer can issue. -/
def runOps (ex : Exec) (s : State) : List (Nat × Option Instr) → Option State
  | [] => some s
  | p :: r =>
    let s' := runOp ex s p
    if s'.mark = .clean then runOps ex s' r else none

/-- Operations in the order in which they act: SPILL first, since a write of its bundle to the register it spills comes
after it (R60, R206), then by slot. -/
def actOrder (ops : List (Nat × Option Instr)) : List (Nat × Option Instr) :=
  let sp (p : Nat × Option Instr) : Bool := match p.2 with | some (.spill _) => true | _ => false
  ops.filter sp ++ ops.filter fun p => !sp p

/-- The end of a bundle: the model's own fields fall back. -/
def State.close (s : State) : State := { s with before := none, mark := .clean }.forget s.focus

/-- The end of the last issue of a bundle (R202, R218, R247, R248, R350). A rotation steps the bases as a CSRW of the same
bundle left them, and a TRET in the LEND bundle of a handler's loop leaves without the end of the pass (DESIGN CHOICE, log
entries 66 and 69). -/
def Ctx.advance (k : Ctx) (target : Option Nat) (b : Bundle) : Ctx :=
  let next := (b.addr + 4 * b.words) % 2 ^ 56
  let k1 := if b.rot ∧ ¬ k.loopBegan ∧ ¬ (k.loop.act ∧ k.loop.last = b.addr ∧ k.redirect = none) then k.rotate else k
  let k2 : Ctx := { k1 with redirect := none, loopBegan := false }
  match k.redirect with
  | some .ret => k2
  | some (.shadow a) => { k2 with pc := next, issue := 0, target := some a }
  | some (.to a) => { k2 with pc := a, issue := 0, target := none }
  | none =>
    if k.loop.act ∧ k.loop.last = b.addr then
      let k3 := k2.passEnd
      { k3 with pc := if k3.loop.act then k3.loop.start else next, issue := 0, target := none }
    else
      match target with
      | some t => { k2 with pc := t, issue := 0, target := none }
      | none => { k2 with pc := next, issue := 0, target := none }

/-- A bundle that has issued: the records of its slots (R201), its next issue or its end (R200). -/
def State.retire (s : State) (b : Bundle) : State :=
  let old := s.old
  let sticky : Tab Instr := b.ops.filterMap fun p => p.2.map fun i => (p.1, i)
  (s.onCur fun k =>
    if k.task.isNone then k
    else if old.issue < b.rep then { k with issue := old.issue + 1, sticky }
    else
      let k1 := k.advance old.target b
      if k.redirect = some .ret then k1 else { k1 with sticky }).close

/-- What came of an attempt to issue. -/
inductive Issued
  | waits (s : State)
  | done (s : State)

/-- Issues a bundle of the context in focus: a trap with EARLYREAD among the causes comes before a wait, a wait before
any other trap (R209, R347); otherwise every operation takes effect. -/
def State.issueBundle (ex : Exec) (s : State) (b : Bundle) : Issued :=
  let s0 : State := { s with before := some (s.cur, s.nextId), mark := .clean }
  let ops := s0.checkOps b.words b.rep [] b.ops
  let outs := ops.map (runOp ex s0)
  let bad (o : State) : Bool := o.mark = .traps || o.mark = .early
  if outs.any fun o => o.mark = .early then .done ((outs.find? bad).getD s).close
  else match outs.find? fun o => o.mark = .waits with
    | some o => .waits { o with before := none, mark := .clean }
    | none =>
      match outs.find? bad with
      | some o => .done o.close
      | none =>
        match runOps ex s0 (actOrder ops) with
        | some s1 => .done (s1.retire { b with ops })
        | none => .waits (s.onCur fun k => { k with status := .waiting .other })

/-- An attempt to issue the next bundle of a context, with the slots it takes and whether it may merge. R162 speaks of
the slot codes of a bundle only: an illegal bundle, a bad fetch and a wait for a fetch take no slot and hinder no merge
(DESIGN CHOICE, log entry 59). -/
def State.attempt (ex : Exec) (s : State) (c x : Nat) : Issued × List Nat × Bool :=
  let s := { s with focus := .ctx c x }
  match s.bundle with
  | .blocked s' => (.waits (s'.onCur fun k => { k with status := .waiting .fetch }), [], false)
  | .bad a => (.done (s.trap 10 (BitVec.ofNat 64 a) 0).close, [], false)
  | .illegal => (.done (s.trap 1 0 0).close, [], false)
  | .ok b => (s.issueBundle ex b, b.used, b.nomerge)

/-! ## One cycle of a core -/

/-- Whether the clock domain is frozen: a landing is late, or a matrix command misses its elements (R215, R301). -/
def Core.frozen (k : Core) : Bool :=
  (k.ctxs.any fun p => p.2.pend.any fun q => q.landed && !q.arrived && q.due ≤ k.cycle)

/-- The contexts that hold tasks, elder first (R161). -/
def Core.ranked (k : Core) : List Nat :=
  let l := [0, 1, 2, 3].filter fun x => (k.ctx x).busy
  (List.range 4).flatMap fun r => l.filter fun x => k.rank x = r

/-- Whether a context may reach its next bundle in this cycle. -/
def Core.reaches (k : Core) (x : Nat) : Bool :=
  let q := k.ctx x
  q.status = .ready && !q.argWait && q.startAt ≤ k.cycle

/-- Waits that the context's own bundle ends. -/
def Wait.retests : Wait → Bool
  | .regs => true | .waitt => true | .barw => true | .desc => true | .other => true | .fetch => true | _ => false

/-- Whether a context stands at a bundle boundary at which a stop can take it (R331, R351, R360). -/
def Ctx.atBoundary (q : Ctx) : Bool :=
  q.busy && q.issue = 0 &&
    match q.status with
    | .halted => false | .waiting (.unwinding ..) => false | .waiting (.stopping ..) => false | .waiting .ending => false
    | _ => true

/-- A helper that has halted halts the context it serves, once, at that context's next bundle boundary (R331, R351). -/
def State.helperHalt (s : State) (c x : Nat) : State :=
  let k := s.core c
  let q := k.ctx x
  let owed (h : Helper) : Bool := h.owes && h.ctx = x
  if (owed k.loader || owed k.storer) && q.atBoundary then
    let paid (h : Helper) : Helper := { h with owes := h.owes && h.ctx ≠ x }
    let s1 := s.onCore c fun k => { k with loader := paid k.loader, storer := paid k.storer }
    (s1.onCtx c x fun q => { q with status := .halted, trap := { q.trap with code2 := 11 } }).postEvent (dieOf c) 5
      (haltRecord c x q.trap.code 11 true)
  else s

/-- Every pending landing of a context is abandoned: its destination full and poisoned, which counts as written (R215,
R360). -/
def Core.abandon (k : Core) (x : Nat) : Core :=
  let q := k.ctx x
  let k1 := (q.pend.filter fun p => p.landed).foldl (fun (k : Core) p =>
    match p.dest with
    | .g n => k.put x (.g n) (wide (q.gAt n).val) true
    | .v n => k.put x (.v n) (q.vAt n).val true
    | d => k.put x d 0 true) k
  k1.onCtx x fun q => { q with pend := q.pend.filter fun p => !p.landed, argWait := false }

/-- A context that the context-action command has named stops at its bundle boundary (R360); one that a command already
stops goes on with that. -/
def State.stopHere (s : State) (c x : Nat) : State :=
  let q := s.ctx c x
  match q.stop, q.status with
  | none, _ => s
  | some _, .waiting (.stopping _ _) => s.onCtx c x fun k => { k with stop := none }
  | some fail, _ =>
    if q.issue ≠ 0 || !q.busy then s
    else ((s.onCore c fun k => k.abandon x).onCtx c x fun k =>
      { k with stop := none, status := .waiting (.stopping 11 (fail || k.regions.isEmpty)) }).forget (.ctx c x)

/-- In a frozen core a named context abandons its landings wherever it stands, so that the core resumes once no result of
another context is late (R360). -/
def State.stopFrozen (s : State) (c x : Nat) : State :=
  if (s.ctx c x).stop.isSome then (s.onCore c fun k => k.abandon x).stopHere c x else s

def State.stopAll (s : State) (c : Nat) : State := (s.core c).ranked.foldl (fun s x => s.stopFrozen c x) s

/-- Waits that end without the context's bundle: an unwind once the context is settled (R355), a fail once all its stores
are (R352), a task whose END has issued (R274). -/
def State.settle (s : State) (c x : Nat) : State :=
  let q := s.ctx c x
  match q.status with
  | .waiting (.unwinding cause addr slot issue) =>
    let since := (q.regions.getLast?.map (·.since)).getD 0
    if s.settled c x since then s.onCtx c x fun k => k.unwind cause addr slot issue false (s.core c).cycle else s
  | .waiting (.stopping cause fail) =>
    let all := fail || q.regions.isEmpty
    if s.settled c x (if all then 0 else (q.regions.getLast?.map (·.since)).getD 0) then
      if all then s.freeCtx c x true
      else s.onCtx c x fun k => k.unwind cause 0 0 0 (cause = 0) (s.core c).cycle
    else s
  | .waiting .ending => { s with focus := .ctx c x }.finishEnd
  | _ => s

/-- Tests a waiting context again: when its bundle could issue, it is ready from the next cycle (R160). -/
def State.retest (ex : Exec) (s : State) (c x : Nat) : State :=
  match (s.attempt ex c x).1 with
  | .waits s' => s'
  | .done _ => s.onCtx c x fun k => { k with status := .ready }

/-- The candidates of the merge stage with the slots they take: a context whose bundle cannot issue waits. -/
def State.candidates (ex : Exec) (s : State) (c : Nat) : List Nat → State × List (Nat × List Nat × Bool)
  | [] => (s, [])
  | x :: r =>
    if (s.core c).reaches x then
      match s.attempt ex c x with
      | (.waits s', _) => s'.candidates ex c r
      | (.done _, used, nomerge) =>
        let t := s.candidates ex c r
        (t.1, (x, used, nomerge) :: t.2)
    else s.candidates ex c r

/-- The contexts that issue (R162). -/
def merge (loss : Nat → Nat) (cand : List (Nat × List Nat × Bool)) : List Nat :=
  match cand.filter (fun p => loss p.1 = 255) ++ cand.filter (fun p => loss p.1 ≠ 255) with
  | [] => []
  | [a] => [a.1]
  | a :: b :: _ => if (a.2.1.any b.2.1.contains) || a.2.2 || b.2.2 then [a.1] else [a.1, b.1]

/-- Issues a context's bundle. -/
def State.fire (ex : Exec) (s : State) (c x : Nat) : State :=
  match (s.attempt ex c x).1 with
  | .waits s' => s'
  | .done s' => s'

/-- The loss counts after a cycle (R162); the step to 255 is an event of its own, which comes before anything else. -/
def State.losses (s : State) (c : Nat) (ready issued : List Nat) : State :=
  [0, 1, 2, 3].foldl (fun s x =>
    let l := (s.ctx c x).loss
    if !(s.ctx c x).busy then s
    else if !ready.contains x || issued.contains x then s.onCtx c x fun k => { k with loss := 0 }
    else if l ≥ 254 then { s with agenda := (if l = 254 then [.event (.lossCountDue c x)] else []) ++ s.agenda }
    else s.onCtx c x fun k => { k with loss := l + 1 }) s

/-- The code of a waiting cause in a fog report (R359). -/
def Wait.code : Wait → Nat
  | .regs => 2 | .waitt => 3 | .barw => 4 | .spawn => 5 | .desc => 6 | _ => 8

/-- Notes the cause a context waits for. -/
def Ctx.noteWhy (k : Ctx) : Ctx :=
  match k.status with
  | .waiting w => { k with why := w.code }
  | _ => k

/-- Whether a core is resident (R357); a context whose argument copy has not landed cannot issue, so it is waiting (R159,
R160). -/
def Core.resident (k : Core) : Bool :=
  k.frozen || k.mxLate ||
    ((k.ctxs.any fun p => p.2.busy) && k.ctxs.all fun p => !p.2.busy ||
      match p.2.status with
      | .waiting _ => true | .held => true | .halted => true | .ready => p.2.argWait && p.2.startAt ≤ k.cycle | .idle => false)

/-- Settles what does not need an issue: halts, stops, unwinds, ends. -/
def State.settleAll (s : State) (c : Nat) (rs : List Nat) : State :=
  rs.foldl (fun s x => ((s.helperHalt c x).stopHere c x).settle c x) s

/-- The contexts whose wait their own bundle ends. -/
def State.retested (s : State) (c : Nat) (rs : List Nat) : List Nat :=
  rs.filter fun x => match (s.ctx c x).status with | .waiting w => w.retests | _ => false

/-- How a gated core leaves the resident state (R357). -/
def Gate.leave : Gate → Gate
  | .clock => .run | .power => .waking | g => g

/-- Whether a context or the landing buffer needs counted cycles to pass (R357). -/
def Core.needsCycles (k : Core) : Bool :=
  k.ctxs.any fun p =>
    (p.2.pend.any fun q => k.cycle < q.due) || match p.2.status with | .waiting (.yielding _) => true | _ => false

/-- The frozen stretch is over. -/
def Core.thawed (k : Core) : Core := { k with frozenFor := 0 }

/-- A clock period of a gated core: CYCLE stops, FRZCNT advances; the core wakes when it is no longer resident, has a task
to bind, or needs counted cycles. A resident period that has gone on throughout keeps its fog report (R359). -/
def State.gatedTurn (ex : Exec) (s : State) (c : Nat) : State :=
  let k := s.core c
  if k.gate = .waking then s.onCore c Core.freezeOn
  else if k.frozen || k.mxLate then (s.onCore c Core.freezeOn).stopAll c
  else
    let s1 := s.onCore c fun k => { k.thawed with frzcnt := k.frzcnt + 1 }
    let rs := k.ranked
    let s2 := s1.settleAll c rs
    let s3 := (s2.retested c rs).foldl (fun s x => s.retest ex c x) s2
    let k3 := s3.core c
    if k3.resident && !k3.needsCycles && ({ k3 with gate := .run } : Core).bindable.isNone then s3
    else s3.onCore c fun q => { q with gate := q.gate.leave, fogged := q.fogged && k.resident && q.resident }

/-- One clock period of a core: gated, frozen, or one cycle (R162, R215, R357). -/
def State.coreCycle (ex : Exec) (s : State) (c : Nat) : State :=
  let k := s.core c
  if k.gate ≠ .run then s.gatedTurn ex c
  else if k.frozen || k.mxLate then (s.stopAll c).onCore c Core.freezeOn
  else
    let s1 := ((s.onCore c Core.thawed).bindHead c).releaseFreed c
    let rs := (s1.core c).ranked
    let s2 := s1.settleAll c rs
    let waiting := s2.retested c rs
    let r := s2.candidates ex c rs
    let issued := merge (fun x => (s2.ctx c x).loss) r.2
    let s3 := issued.foldl (fun s x => s.fire ex c x) r.1
    let s4 := s3.losses c (r.2.map (·.1)) issued
    let s5 := waiting.foldl (fun s x => s.retest ex c x) s4
    s5.onCore c fun q =>
      { q with cycle := q.cycle + 1, ctxs := q.ctxs.map fun p => (p.1, p.2.noteWhy)
               fogged := q.fogged && k.resident && q.resident }

end Sys2Proof.Machine
end

