-- ==== Sys2Proof/Machine/Retire.lean ====
section
/-! DEFINITION. Translation invalidates (R30); the retirement of a faulted row's pages by a die's resident firmware: a
large leaf is split (R36), a 64 KiB page migrates to a fresh frame of the die (R37). -/

namespace Sys2Proof.Machine

/-! ## Invalidates (R30) -/

/-- Drops the TLB entries for which `gone` holds, on every die. -/
def State.dropTlb (s : State) (gone : TlbEntry → Bool) : State :=
  { s with dies := s.dies.map fun d =>
      (d.1, { d.2 with tlb := d.2.tlb.map fun m => (m.1, m.2.filter fun e => !gone e) }) }

/-- Whether a TLB entry covers part of [va, va + n). -/
def TlbEntry.covers (e : TlbEntry) (asid va n : Nat) : Bool :=
  e.asid = asid && e.tag * 2 ^ lShift e.level < va + n && va < (e.tag + 1) * 2 ^ lShift e.level

/-- A translation invalidate (R30); a migration mark in the range is removed with it (R37). -/
def State.invalidate (s : State) (asid va n : Nat) : State :=
  let s1 := s.dropTlb fun e => e.covers asid va n
  { s1 with dies := s1.dies.map fun d =>
      (d.1, { d.2 with migrating := d.2.migrating.filter fun m =>
        ¬ (m.1 = asid ∧ m.2 * 2 ^ 16 < va + n ∧ va < (m.2 + 1) * 2 ^ 16) }) }

/-! ## The leaves of an address space (R19-R23) -/

/-- A leaf in a page table: its first address, its level, where the entry lies, the entry. -/
structure Leaf where
  va : Nat
  level : Nat
  addr : Nat
  e : Nat
  deriving DecidableEq, Repr

/-- Entries of a table (R19). -/
def lCount : Nat → Nat
  | 0 => 256 | 1 => 512 | 2 => 512 | _ => 32

/-- The leaves under a table at `base` that maps from `va` on. -/
def State.leaves (s : State) : Nat → Nat → Nat → Nat → List Leaf
  | 0, _, _, _ => []
  | n + 1, level, base, va =>
    (List.range (lCount level)).flatMap fun i =>
      let a := base + 8 * i
      let e := s.nat a 8
      let v := va + i * 2 ^ lShift level
      if s.poisoned a 8 || !entV e || !s.entOk level e v then []
      else if entPsz e = 3 then s.leaves n (level + 1) (entNext e) v
      else [{ va := v, level, addr := a, e }]

/-- The 64 KiB piece of a leaf that lies in frame `f` of die `d` (R23). -/
def Leaf.piece (l : Leaf) (d f : Nat) : Option Nat :=
  let off := entPa l.e % 2 ^ 36 / 2 ^ 16
  let near (va : Nat) : Option Nat := ((List.range 32).map fun j => va + j * 2 ^ 16).find? fun v => homeDie v = d
  if entTarget l.e ≠ 0 then none
  else match entPsz l.e with
    | 0 => if entPa l.e = deviceKey d (f * 2 ^ 16) then some l.va else none
    | 1 => if off = f then near l.va else none
    | _ => if off ≤ f && f < off + 512 then near (l.va + (f - off) * 2 ^ 21) else none

/-- The pages that a frame of a die holds a piece of. -/
def State.piecesOf (s : State) (d f : Nat) : List Migration :=
  s.spaces.flatMap fun p => (s.leaves 4 0 p.2.root 0).filterMap fun l =>
    (l.piece d f).map fun va => { asid := p.1, va, frame := f, marked := false }

/-- The leaf that maps an address. -/
def State.leafAt (s : State) (asid va : Nat) : Option Leaf :=
  ((s.spaces.find? fun p => p.1 = asid).map (·.2)).bind fun a =>
    (s.leaves 4 0 a.root 0).find? fun l => l.va ≤ va && va < l.va + 2 ^ lShift l.level

/-! ## Splitting and migration (R36, R37) -/

/-- A leaf with the fields of another at a physical address. -/
def leafFor (e psz pa : Nat) : Nat := e % 2 ^ 14 + psz * 2 ^ 14 + fld pa 16 36 * 2 ^ 16 + fld e 52 12 * 2 ^ 52

/-- A pointer to a table (R21). -/
def tablePtr (pa : Nat) : Nat := 1 + fld pa 10 6 * 2 ^ 8 + 3 * 2 ^ 14 + fld pa 16 36 * 2 ^ 16

/-- The entries of the table that replaces a large leaf: 64 KiB leaves for 2 MiB, 2 MiB leaves for 1 GiB. -/
def Leaf.parts (l : Leaf) : List Nat :=
  let off := entPa l.e % 2 ^ 36
  if l.level = 2 then
    (List.range 32).map fun j => leafFor l.e 0 (deviceKey (homeDie (l.va + j * 2 ^ 16)) off)
  else (List.range 512).map fun r => leafFor l.e 1 (off + r * 2 ^ 16)

/-- The frames of die `d` (by number in the package) that a table at `base` and all below it take. -/
def State.framesUnder (s : State) (d : Nat) : Nat → Nat → Nat → Nat → List Nat
  | 0, _, _, _ => []
  | n + 1, level, base, va =>
    base / 2 ^ 16 :: (List.range (lCount level)).flatMap fun i =>
      let e := s.nat (base + 8 * i) 8
      let v := va + i * 2 ^ lShift level
      let off := entPa e % 2 ^ 36
      if s.poisoned (base + 8 * i) 8 || !entV e || !s.entOk level e v then []
      else if entPsz e = 3 then s.framesUnder d n (level + 1) (entNext e) v
      else if entTarget e ≠ 0 then []
      else match entPsz e with
        | 0 => [entPa e / 2 ^ 16]
        | 1 => [deviceKey d off / 2 ^ 16]
        | _ => (List.range 512).map (deviceKey d off / 2 ^ 16 + ·)

/-- The frames in use: those that tables and leaves of a registered address space take, those that hold anything but
zeros, the selection log and the die's state block, and those of faulted rows. -/
def State.usedFrames (s : State) (d : Nat) : List Nat :=
  let held (l : List Nat) : List Nat := (l.filter (· < 2 ^ 41)).map (· / 2 ^ 16)
  (s.spaces.flatMap fun p => s.framesUnder d 4 0 p.2.root 0) ++ held (s.mem.map (·.1)) ++ held (s.poison.map (64 * ·)) ++
    (List.range 18).map (logKey / 2 ^ 16 + ·) ++ (s.die d).badRows.map (d * 2 ^ 20 + ·) ++ (List.range 4).map (blockKey d / 2 ^ 16 + ·)

/-- A frame of a die that is not in use, from one that is the firmware's choice on: a free value (log entry 47). None when
the die has no frame left. -/
def State.freshFrame (s : State) (d : Nat) : Option (Nat × State) :=
  let (n, s1) := s.draw
  let used := s.usedFrames d
  let at_ (i : Nat) : Nat := deviceKey d ((Config.freshFrame n + i) % 786432 * 2 ^ 16)
  (((List.range (min 786432 (used.length + 1))).map at_).find? fun k => !used.contains (k / 2 ^ 16)).map fun k => (k, s1)

/-- A large leaf becomes a pointer to a table in the frame at `t`, and its range is invalidated (R36). -/
def State.splitLeaf (s : State) (d t asid : Nat) (l : Leaf) : State :=
  ((s.physStore d t (l.parts.flatMap fun e => leBytes 8 e) false).physStore d l.addr (leBytes 8 (tablePtr t)) false).invalidate
    asid l.va (2 ^ lShift l.level)

/-- A frame's bytes and poison at another frame, written by die `d`. -/
def State.copyFrame (s : State) (d src dst : Nat) : State :=
  let s1 := s.physStore d dst (s.bytes src (2 ^ 16)) false
  let moved := (s.poison.filter fun l => src ≤ 64 * l && 64 * l < src + 2 ^ 16).map fun l => (64 * l - src + dst) / 64
  { s1 with poison := moved.foldl insSorted (s.poison.filter fun l => ¬ (dst ≤ 64 * l ∧ 64 * l < dst + 2 ^ 16)) }

/-- A page leaves the retirement list: its record, if the firmware has taken one, is answered with a retry (R31, R37). -/
def State.answerRetired (s : State) (m : Migration) : State := if m.asked then s.answer m.asid m.va false else s

/-- A page goes to the frame at `t`: its new leaf is written and the page invalidated (R37). -/
def State.moveLeaf (s : State) (d t : Nat) (m : Migration) : State :=
  match s.leafAt m.asid m.va with
  | some l => (s.physStore d l.addr (leBytes 8 (leafFor l.e 0 t)) false).invalidate m.asid m.va (2 ^ 16)
  | none => s

/-- The end of a migration to the frame at `t` (R37): the frame is copied once, every page that shares it goes to the new
frame, then their records are answered. -/
def State.moveFrame (s : State) (d f t : Nat) (pages : List Migration) : State :=
  let s1 := pages.foldl (fun s m => s.moveLeaf d t m) (s.copyFrame d (deviceKey d (f * 2 ^ 16)) t)
  pages.foldl State.answerRetired s1

/-- Pages marked migrating at their MTU (R37). -/
def State.markMigrating (s : State) (d : Nat) (pages : List Migration) : State :=
  s.onDie d fun k => { k with migrating := k.migrating ++ (pages.map fun m => (m.asid, pageOf m.va)) }

/-- The next act for frame `f` on a die's retirement list: a split of a large leaf, the migration marks of all its pages, or
their move to one new frame. Pages that no longer lie in the frame leave the list, and all do when no frame is left; none
while a stream is full (R138). -/
def State.retireFrame (s : State) (d f : Nat) : Option State :=
  let list := (s.die d).retire
  let rest := list.filter fun m => m.frame ≠ f
  let now := s.piecesOf d f
  let pages := now.map fun m => (list.find? fun n => n.frame = f && n.asid = m.asid && n.va = m.va).getD m
  let gone := list.filter fun m => m.frame = f && !(now.any fun n => n.asid = m.asid && n.va = m.va)
  let keep (s : State) (l : List Migration) : State := s.onDie d fun k => { k with retire := l }
  let drop (s : State) (l : List Migration) : State :=
    l.foldl (fun s m => (if m.marked then s.invalidate m.asid m.va (2 ^ 16) else s).answerRetired m) s
  if !gone.isEmpty then some (keep (drop s gone) (pages ++ rest))
  else match s.freshFrame d with
    | none => some (keep (drop s pages) rest)
    | some (t, s1) =>
      if pages.isEmpty then some (keep s rest)
      else if !s.physOpen d (t :: t :: pages.map fun m => ((s.leafAt m.asid m.va).map Leaf.addr).getD 0) then none
      else match pages.findSome? fun m => ((s.leafAt m.asid m.va).filter fun l => l.level < 3).map fun l => (m.asid, l) with
        | some (asid, l) => some (keep (s1.splitLeaf d t asid l) (pages ++ rest))
        | none =>
          if pages.all Migration.marked then some (keep (s1.moveFrame d f t pages) rest)
          else some (keep (s.markMigrating d (pages.filter fun m => !m.marked))
            ((pages.map fun m => { m with marked := true }) ++ rest))

/-- The next act for the first page on a die's retirement list. -/
def State.retirePage (s : State) (d : Nat) : Option State :=
  match (s.die d).retire with
  | [] => none
  | m :: _ => s.retireFrame d m.frame

end Sys2Proof.Machine
end

