-- ==== Sys2Proof/Machine/Firmware.lean ====
section
/-! DEFINITION. The distributors' resident firmware as events: launch records (R180-R182), selection (R183-R185,
R189), distribution (R186, R187), completion (R188), the journal (R341, R431, R433), event records and port records
(R344, R345, R393), hand-over (R338), context actions by the firmware (R352). -/

namespace Sys2Proof.Machine

/-! ## Launch records (R180) -/

abbrev Launch := List Word

def Launch.w (r : Launch) (i : Nat) : Nat := (r.getD i 0).toNat
def Launch.asid (r : Launch) : Nat := fld (r.w 0) 56 6
def Launch.gdim (r : Launch) : Nat := fld (r.w 2) 9 3
def Launch.gkind (r : Launch) : Nat := fld (r.w 2) 12 2
def Launch.gn (r : Launch) : Nat := fld (r.w 2) 14 3
def Launch.ndeps (r : Launch) : Nat := fld (r.w 2) 17 2
def Launch.dslots (r : Launch) : Nat := fld (r.w 2) 19 10
def Launch.cev (r : Launch) : Bool := bit (r.w 2) 37
def Launch.ext (r : Launch) (j : Nat) : Nat := fld (r.w (4 + j / 4)) (16 * (j % 4)) 16
def Launch.ncc (r : Launch) : Nat := fld (r.w 7) 0 56
def Launch.daddr (r : Launch) (j : Nat) : Nat := fld (r.w (9 + 2 * j)) 0 56
def Launch.dval (r : Launch) (j : Nat) : Nat := r.w (10 + 2 * j)
/-- M, the members of a gang (R186). -/
def Launch.m (r : Launch) : Nat := if r.gkind = 0 then r.gn else 4 * r.gn
/-- T, the tiles. -/
def Launch.tiles (r : Launch) : Nat := ((List.range (r.gdim + 1)).map r.ext).prod

/-! ## The distribution algorithm (R186) -/

def Cursors.online (k : Cursors) (core : Nat) : Bool := !k.offline.getLsbD core

/-- The online cores of cluster `cl` in order from CC[cl]. -/
def Cursors.coresOf (k : Cursors) (cl : Nat) : List Nat :=
  ((List.range 4).map fun i => 4 * cl + (k.cc.get cl 0 + i) % 4).filter k.online

/-- The cluster for the next gang of `gn` cores. -/
def Cursors.cluster (k : Cursors) (gn : Nat) : Option Nat :=
  ((List.range 160).map fun i => (k.cur + i) % 160).find? fun cl => gn ≤ (k.coresOf cl).length

/-- Whether die `e` has its first `gn` clusters whole. -/
def Cursors.whole (k : Cursors) (gn e : Nat) : Bool := (List.range (4 * gn)).all fun i => k.online (20 * e + i)

/-- The die for the next gang of whole clusters. -/
def Cursors.dieFor (k : Cursors) (gn : Nat) : Option Nat :=
  ((List.range 32).map fun i => (k.dcur + i) % 32).find? (k.whole gn)

/-- The cores of the next gang and the cursors after it. -/
def Cursors.gang (k : Cursors) (gkind gn : Nat) : Option (List Nat × Cursors) :=
  if gkind = 0 then
    (k.cluster gn).map fun cl =>
      let cs := (k.coresOf cl).take gn
      (cs, { k with cur := (cl + 1) % 160, cc := k.cc.set cl ((cs.getLastD 0 + 1) % 4) })
  else (k.dieFor gn).map fun e => ((List.range (4 * gn)).map (20 * e + ·), { k with dcur := (e + 1) % 32 })

/-- The gangs of a node in order, and the cursors after them. -/
def Cursors.gangs (k : Cursors) (gkind gn : Nat) : Nat → List (List Nat) × Cursors
  | 0 => ([], k)
  | n + 1 =>
    match k.gang gkind gn with
    | none => ([], k)
    | some (cs, k1) => let r := Cursors.gangs k1 gkind gn n; (cs :: r.1, r.2)

def Launch.place (r : Launch) (k : Cursors) : List (List Nat) × Cursors := k.gangs r.gkind r.gn (r.tiles / max 1 r.m)

/-- The coordinates of tile t: the highest dimension varies fastest. -/
def Launch.coord (r : Launch) (t : Nat) : List Word :=
  ((List.range (r.gdim + 1)).reverse.foldl (fun (acc : Nat × List Word) j =>
    (acc.1 / max 1 (r.ext j), BitVec.ofNat 64 (acc.1 % max 1 (r.ext j)) :: acc.2)) (t, [])).2

/-- The members of a node on die d: gang number, member, core. -/
def Launch.members (r : Launch) (k : Cursors) (d : Nat) : List (Nat × Nat × Nat) :=
  ((r.place k).1.zipIdx.flatMap fun (cs, g) => cs.zipIdx.map fun (c, m) => (g, m, c)).filter fun p => dieOf p.2.2 = d

/-! ## Rejection (R182) -/

def Launch.reserved (r : Launch) : Bool :=
  fld (r.w 0) 62 2 ≠ 0 || fld (r.w 1) 56 8 ≠ 0 || fld (r.w 2) 38 26 ≠ 0 || 2 ≤ r.gkind || fld (r.w 3) 32 32 ≠ 0 ||
    fld (r.w 7) 56 8 ≠ 0 || fld (r.w 15) 0 56 ≠ 0 || (List.range r.ndeps).any fun j => fld (r.w (9 + 2 * j)) 56 8 ≠ 0

def Launch.misaligned (r : Launch) : Bool :=
  r.w 0 % 4 ≠ 0 || bit (r.w 3) 0 || bit (r.w 3) 16 || r.ncc % 16 ≠ 0 ||
    (List.range r.ndeps).any fun j => r.daddr j % 16 ≠ 0

/-- The lowest WHY of 1 to 6 that applies. -/
def State.why (s : State) (r : Launch) : Option Nat :=
  if r.reserved then some 1
  else if 256 < fld (r.w 2) 0 9 || 512 < r.dslots || r.gn = 0 || (if r.gkind = 0 then 4 else 5) < r.gn then some 2
  else if ((List.range (r.gdim + 1)).any fun j => r.ext j = 0) || r.tiles % r.m ≠ 0 || 2 ^ 32 ≤ r.tiles / r.m then some 3
  else if r.misaligned then some 4
  else if !(s.spaces.any fun p => p.1 = r.asid) then some 5
  else if ((s.curs 0).gang r.gkind r.gn).isNone then some 6
  else none

/-! ## Reads and writes of the firmware -/

/-- The active distributor core of a die (R338). -/
def State.onDist (s : State) (d : Nat) (f : Dist → Dist) : State :=
  s.onDie d fun k => if k.role then { k with relf := f k.relf } else { k with prim := f k.prim }

def distAcc (d asid : Nat) (kind : AccKind) : Acc := { agent := .dist d, kind, asid }

/-- A store of the firmware that it waits for. -/
def State.storeNow (s : State) (d asid va : Nat) (bs : List Byte) : Asked :=
  let a := distAcc d asid .store
  s.ask a (readTag a va bs.length) [] 0 0 [.raw va bs false] none

/-- A store of the firmware that is executed when its turn comes. -/
def State.storeLater (s : State) (d asid va : Nat) (bs : List Byte) : State :=
  s.submit { (distAcc d asid .store).req s.nextId 0 [] 0 0 [.raw va bs false] none with ret := .none }

/-- The reads that the firmware of a die has waited for are used. -/
def State.forgetLoads (s : State) (d : Nat) : State :=
  { s with results := s.results.filter fun r => ¬ (r.agent = .dist d ∧ (r.tag - 2) % 16 = AccKind.load.code) }

/-- Whether the firmware of a die waits for an access. -/
def State.distParked (s : State) (d : Nat) : Bool :=
  (s.parked.any fun p => p.req.agent = .dist d && p.req.ret.owned) || s.net.any fun r => r.agent = .dist d && r.ret.owned

/-- Whether the distributor of a die runs the resident firmware; it stands still during a rollback (R373). -/
def State.distRuns (s : State) (d : Nat) : Bool := !(s.die d).lost && s.mgmt.fw.isEmpty && !s.ck.restoring

/-- Whether the resident firmware of a die goes on: it waits for no access, and its streams have room for what one
operation writes to its own memory and to that of die 0 (R138). -/
def State.distLive (s : State) (d : Nat) : Bool := s.distRuns d && !s.distParked d && s.streamOpen d [d, d, 0]

/-! ## Distribution steps (R186, R187, R433) -/

/-- Whether an operation belongs to the distribution of an entry, or to a take-over. -/
def Todo.distributes : Todo → Bool
  | .taskEnd _ => false
  | .ended _ _ => false
  | .intent _ => false
  | .amo _ => false
  | .jwrAdd _ _ _ => false
  | .post _ => false
  | .fails _ => false
  | _ => true

/-- A node boundary: die 0 neither writes nor distributes an entry (R185, R189). -/
def State.boundary (s : State) : Bool := s.progressOf 0 = s.logSeq && !(s.die 0).todo.any Todo.distributes

/-- The run-queue entry of a member, as its bind record gives it (R340): not released. -/
def Launch.entry (r : Launch) (seq queue g m ticket : Nat) : Entry :=
  { entry := fld (r.w 0) 0 56, asid := r.asid, args := fld (r.w 1) 0 56, argLen := fld (r.w 2) 0 9, dslots := r.dslots
    accm := fld (r.w 2) 29 8, lpc := if bit (r.w 3) 15 then some (fld (r.w 3) 0 15) else none
    spc := if bit (r.w 3) 31 then some (fld (r.w 3) 16 15) else none
    nodeId := BitVec.ofNat 64 (r.w 6), g10 := BitVec.ofNat 64 (m + g % 2 ^ 32 * 2 ^ 8), coords := r.coord (g * r.m + m)
    gang := some (seq * 2 ^ 32 + g, r.m), ticket, released := false, spawned := false, ncc := r.ncc, queue }

/-- Whether a core takes another bind of its distributor (R64, R164, R363). -/
def Core.takes (k : Core) : Bool := k.runq.length < 16 && !k.withheld && !k.moving

/-- The ticket of a core's next bind: BCNT advances by one (R337, R340). -/
def State.nextTicket (s : State) (c : Nat) : Nat := c % 20 * 2 ^ 32 + ((s.die (dieOf c)).bcnt.get (c % 20) 0 + 1) % 2 ^ 32

/-- Whether a ticket has been issued and not cancelled. -/
def Die.issued (k : Die) (t : Nat) : Bool :=
  t / 2 ^ 32 < 20 && 0 < t % 2 ^ 32 && t % 2 ^ 32 ≤ k.bcnt.get (t / 2 ^ 32) 0 && !k.cancelled.contains t

/-- lx.rel: the state and the status. -/
def State.relTicket (s : State) (d t : Nat) (cancel : Bool) : State × Nat :=
  let c := 20 * d + t / 2 ^ 32
  if !(s.die d).issued t then (s, 1)
  else
    let mine (e : Entry) : Bool := e.ticket = t && !e.spawned
    if (s.core c).runq.any fun e => mine e && !e.released then
      if cancel then
        ((s.onCore c fun k => { k with runq := k.runq.filter fun e => !mine e }).onDie d fun k =>
          { k with cancelled := k.cancelled ++ [t] }, 0)
      else (s.onCore c fun k => { k with runq := k.runq.map fun e => if mine e then { e with released := true } else e }, 0)
    else (s, 2)

/-- The operations of one member after the BIND in the journal (R433). -/
def bindSteps (seq g m c ticket : Nat) : List Todo := [.bind seq g m c, .ticket seq ticket, .rel ticket]

/-- The operations after the last member (R433); the COUNT add of a die without members comes after DONE (R188). -/
def finishSteps (seq queue prio mem : Nat) : List Todo :=
  [.table seq mem, .copy seq queue prio, .jwrDone seq, .progress seq]

/-- The COUNT add of a bound task's node (R188, R431). -/
def Share.countAdd (h : Share) (ended : Nat) : AddJob := { addr := h.ncc, seq := h.seq, ended, asid := h.asid, target := 0 }

/-- The COUNT add that a die owes for a node of which it has no member. -/
def State.emptyAdd (s : State) (d seq : Nat) : List Todo :=
  if (s.share d seq).mem = 0 then [.intent ((s.share d seq).countAdd 0)] else []

/-- What follows an add once its ADD is in the journal (R433): after FAILS the next step of the task-end record, after the
COUNT add that completes the node the posts. -/
def State.afterAdd (s : State) (d : Nat) (a : AddJob) (old : Nat) (lost : Bool) : List Todo :=
  if a.target = 1 then
    if a.ended = 0 then [.intent { a with addr := a.addr - 8, target := 2 }] else [.ended a.seq a.ended]
  else if !lost && (old + 1) % 2 ^ 64 = (s.share d a.seq).nccEnd then [.post a.seq] else []

/-- What follows an END (R433): for a failed task the FAILS add first. -/
def endSteps (h : Share) (n : Nat) (failed spawned : Bool) : List Todo :=
  if failed then [.intent { addr := h.ncc + 8, seq := h.seq, ended := n, asid := h.asid, target := 1 }]
  else if spawned then [.intent { addr := h.ncc, seq := h.seq, ended := 0, asid := h.asid, target := 2 }]
  else [.ended h.seq n]

def EvRec.w (r : EvRec) (i : Nat) : Nat := (r.words.getD i 0).toNat

/-- A task-end record (R433): skipped when its END is already in the journal; else END with the new ENDED of a bound task's
node, then what follows. -/
def State.endRecord (s : State) (d : Nat) (r : EvRec) : State × List Todo :=
  let failed := bit (r.w 2) 0
  let spawned := bit (r.w 0) 63
  if s.ended d (r.words.getD 0 0) then (s, [])
  else if spawned then
    match s.shareOf d (r.w 3) (some (r.words.getD 1 0)) with
    | none => (s, [])
    | some h => (s.journal d 5 (leBytes 8 (r.w 0) ++ leBytes 4 0 ++ leBytes 2 0 ++
        [BitVec.ofNat 8 (failed.toNat + 2), 0] ++ leBytes 8 (r.w 3)), endSteps h 0 failed true)
  else
    let h := s.share d (s.ticketSeq d (r.w 0))
    let n := h.ended + 1
    (s.journal d 5 (leBytes 8 (r.w 0) ++ leBytes 4 h.seq ++ leBytes 2 n ++ [BitVec.ofNat 8 failed.toNat]),
      endSteps h n failed false)

/-- The record's operations at the queue: QHEAD and what the queue remembers of the node, then the head word (R185). A relief
finds what the primary has done (R434). -/
def State.headSteps (s : State) (seq n slot : Nat) : State :=
  let h := BitVec.ofNat 32 (slot + 1)
  let s1 := if (s.queue n).lastseq = seq then s else
    s.onQueue n fun q => { q with head := h, depsat := 0, stale := false, selcnt := q.selcnt + 1, lastseq := seq }
  s1.storeLater 0 (s1.queue n).asid (s1.queue n).heada (leBytes 8 h.toNat)

/-- The port record after the add that completed a node, from the distributor of die `d` that made it (R188, R345). A queue
destroyed meanwhile has no owner: its records go to port A (log entry 54). -/
def State.postFails (s : State) (d : Nat) (h : Share) (fails : Nat) : State :=
  let owner := (s.queue h.queue).owner
  let words : List Word := [h.nodeId, BitVec.ofNat 64 h.ncc]
  if fails ≠ 0 then s.postPort owner 3 d h.queue (words ++ [BitVec.ofNat 64 fails])
  else if h.cev then s.postPort owner 2 d h.queue words else s

/-! ## Taking over (R434) -/

/-- The members of an entry that are still to be finished (R342): a BIND in the journal whose bind has been made asks for its
release only. `j` is the journal SEQ of the NODE. -/
def State.memberSteps (s : State) (d j seq : Nat) (ms : List (Nat × Nat × Nat)) : List Todo :=
  ms.zipIdx.flatMap fun (p, i) =>
    let c := p.2.2
    if j + 1 + i < (s.die d).jtail then
      let t := s.jfield d (j + 1 + i) 8 8
      if t % 2 ^ 32 ≤ (s.die d).bcnt.get (c % 20) 0 then [.ticket seq t, .rel t]
      else bindSteps seq p.1 p.2.1 c t
    else [.jwrBind seq p.1 p.2.1 c]

/-- The journal SEQ of the NODE that entry `n` follows, going back over BINDs. -/
def State.nodeBack (s : State) (d : Nat) : Nat → Nat → Option Nat
  | 0, _ => none
  | f + 1, n =>
    if s.jfield d n 4 1 = 1 then some n
    else if n = 0 then none else s.nodeBack d f (n - 1)

/-- What the take-over routine finds to do from the newest journal entry. A journal with no NODE in it asks for nothing
(log entry 46). -/
def State.reliefSteps (s : State) (d : Nat) : List Todo :=
  let t := (s.die d).jtail
  let n := t - 1
  let f (off len : Nat) : Nat := s.jfield d n off len
  if t = 0 then []
  else match f 4 1 with
    | 6 =>
      let a : AddJob := { addr := f 8 8, seq := f 16 4, ended := f 20 2, asid := f 22 1 % 64, target := f 23 1 }
      if (s.die d).amoAddr.toNat = a.addr ∧ n < (s.die d).amoJseq then [.jwrAdd a (s.die d).amoOld.toNat false] else [.amo a]
    | 5 =>
      let failed := bit (f 22 1) 0
      if bit (f 22 1) 1 then ((s.shareOf d (f 24 8) none).map fun h => endSteps h 0 failed true).getD []
      else endSteps (s.share d (f 16 4)) (f 20 2) failed false
    | 4 =>
      let a : AddJob := { addr := f 8 8, seq := f 24 4, ended := f 28 2, asid := (s.share d (f 24 4)).asid, target := f 30 1 }
      s.afterAdd d a (f 16 8) false
    | 3 => [.progress (f 8 4)]
    | _ =>
      match s.nodeBack d 16384 n with
      | none => []
      | some j =>
        let g (off len : Nat) : Nat := s.jfield d j off len
        let fix : List Todo := if d = 0 then [.logFix (g 8 4) (g 12 1 % 64) (g 16 4), .head (g 8 4) (g 12 1 % 64) (g 16 4)] else []
        fix ++ [.members (g 8 4) (g 12 1 % 64) (g 13 1)]

/-! ## One operation of the firmware (R433, R434) -/

/-- What an operation comes to: done, with the operations to do next; or waiting for an access; or for room. -/
inductive Did
  | ok (s : State) (next : List Todo)
  | waits (s : State)
  | no

/-- The members of an entry on die d: gang number, member, core, from the cursors before it. -/
def State.membersOf (s : State) (d seq : Nat) : List (Nat × Nat × Nat) :=
  match s.logEntry seq with
  | some e => Launch.members e.record (s.cursAt d (seq - 1)) d
  | none => []

/-- The launch record of an entry. -/
def State.recordOf (s : State) (seq : Nat) : Launch := ((s.logEntry seq).map LogEntry.record).getD []

/-- What the primary had under way for its own work is nobody's: what it asked for is made, and no one waits for it. An AMO
returns its value all the same (R430): it stays while `amo`. Commands of the ports go on. -/
def State.abandon (s : State) (d : Nat) (amo : Bool) : State :=
  let mine (r : Req) : Bool := r.agent = .dist d && (amo → r.atom.isNone) &&
    match r.ret with | .own t => 18 ≤ t | _ => false
  let gone (r : Result) : Bool := r.agent = .dist d && 18 ≤ r.tag && (amo → (r.tag - 2) % 16 ≠ AccKind.atomic.code)
  { s with results := s.results.filter fun r => !gone r
           net := s.net.map fun r => if mine r then { r with ret := .none } else r
           parked := s.parked.map fun p => if mine p.req then { p with req := { p.req with ret := .none } } else p }

/-- The AMO that the primary had under way when it stopped is complete before the relief looks at AMOADDR (R430). -/
def State.settleAmo (s : State) (d : Nat) : State :=
  match s.results.find? fun r => r.agent = .dist d && 18 ≤ r.tag && (r.tag - 2) % 16 = AccKind.atomic.code with
  | none => s
  | some r =>
    if r.prog.poisoned then s
    else s.onDie d fun k => { k with amoAddr := BitVec.ofNat 64 ((r.tag - 2) / 2 ^ 24 % 2 ^ 56)
                                     amoOld := BitVec.ofNat 64 (gotNat r.prog.data.flatten), amoJseq := k.jtail }

/-- One operation. -/
def State.operate (s : State) (d : Nat) : Todo → Did
  | .takeOver => let s1 := (s.settleAmo d).abandon d false; .ok s1 (s1.reliefSteps d ++ [.kicks])
  | .jwrNode seq queue prio slot =>
    .ok (s.journal d 1 (leBytes 4 seq ++ [BitVec.ofNat 8 queue, BitVec.ofNat 8 prio, 0, 0] ++ leBytes 4 slot)) []
  | .log e => .ok ({ s with logSeq := e.seq }.writeLog e) []
  | .logFix seq queue slot =>
    if s.nat (logEntryKey seq) 4 = seq then .ok { s with logSeq := seq } []
    else
      let q := s.queue queue
      match s.readNow (distAcc 0 q.asid .load) (q.base + slot % 2 ^ q.caplog * 128) 128 with
      | .blocked s' => .waits s'
      | .ready bs =>
        let e : LogEntry := { seq, kind := 0, queue, slot, record := slotWords (bs.map (·.1)), map := 0 }
        .ok ({ s.forgetLoads 0 with logSeq := seq }.writeLog e) []
  | .head seq queue slot => .ok (s.headSteps seq queue slot) []
  | .members seq queue prio =>
    let ms := s.membersOf d seq
    let j := (s.nodeBack d 16384 ((s.die d).jtail - 1)).getD 0
    .ok s (s.memberSteps d j seq ms ++ finishSteps seq queue prio ms.length)
  | .jwrBind seq g m c =>
    let t := s.nextTicket c
    .ok (s.journal d 2 (leBytes 8 t ++ leBytes 8 (Config.bindRecord d seq (g * (s.recordOf seq).m + m))))
      (bindSteps seq g m c t)
  | .bind seq g m c =>
    if !(s.core c).takes then .no
    else
      let t := s.nextTicket c
      .ok ((s.onDie d fun k => { k with bcnt := k.bcnt.set (c % 20) (t % 2 ^ 32) }).onCore c fun k =>
        { k with runq := k.runq ++ [(s.recordOf seq).entry seq (((s.logEntry seq).map LogEntry.queue).getD 0) g m t] }) []
  | .ticket seq t => .ok (s.writeTicket d t seq) []
  | .rel t => .ok (s.relTicket d t false).1 []
  | .table seq mem =>
    let r := s.recordOf seq
    .ok (s.writeShare d { seq, ncc := r.ncc, nccEnd := r.w 8, queue := ((s.logEntry seq).map LogEntry.queue).getD 0
                          cev := r.cev, asid := r.asid, nodeId := BitVec.ofNat 64 (r.w 6), mem, ended := 0 }) []
  | .copy seq queue prio =>
    let k := ((s.recordOf seq).place (s.cursAt d (seq - 1))).2
    .ok (s.writeCursors d seq { k with rr := k.rr.set prio ((queue + 1) % 64) }) []
  | .jwrDone seq => .ok (s.journal d 3 (leBytes 4 seq)) []
  | .progress seq => .ok (s.writeProgress d seq) (s.emptyAdd d seq)
  | .taskEnd r => let t := s.endRecord d r; .ok t.1 t.2
  | .ended seq n =>
    let h := s.share d seq
    let m := max h.ended n
    .ok (s.writeShare d { h with ended := m }) (if m = h.mem then [.intent (h.countAdd m)] else [])
  | .intent a =>
    .ok ((s.journal d 6 (leBytes 8 a.addr ++ leBytes 4 a.seq ++ leBytes 2 a.ended ++
      [BitVec.ofNat 8 a.asid, BitVec.ofNat 8 a.target])).onDist d fun k => { k with asid := a.asid }) [.amo a]
  | .amo a =>
    match s.addNow (.dist d) (readTag (distAcc d a.asid .atomic) a.addr 8) a.asid a.addr 1 with
    | .blocked s' => .waits s'
    | .ready old p s' =>
      .ok (if p then s' else s'.onDie d fun k =>
        { k with amoAddr := BitVec.ofNat 64 a.addr, amoOld := BitVec.ofNat 64 old, amoJseq := k.jtail }) [.jwrAdd a old p]
  | .jwrAdd a old lost =>
    .ok (s.journal d 4 (leBytes 8 a.addr ++ leBytes 8 old ++ leBytes 4 a.seq ++ leBytes 2 a.ended ++ [BitVec.ofNat 8 a.target]))
      (s.afterAdd d a old lost)
  | .post seq =>
    let h := s.share d seq
    match s.readNow (distAcc d h.asid .load) (h.ncc + 8) 8 with
    | .blocked s' => .waits s'
    | .ready bs => .ok ((s.forgetLoads d).postEvent 0 2
        [BitVec.ofNat 64 h.ncc, h.nodeId, BitVec.ofNat 64 (h.queue + h.seq * 2 ^ 32), BitVec.ofNat 64 (gotNat bs)]) [.fails seq]
  | .fails seq =>
    let h := s.share d seq
    match s.readNow (distAcc d h.asid .load) (h.ncc + 8) 8 with
    | .blocked s' => .waits s'
    | .ready bs => .ok ((s.forgetLoads d).postFails d h (gotNat bs)) []
  | .kicks => .ok ((if d = 0 then s.onDie 0 fun k => { k with kicks := 0 } else s).writePend d (-1)) []

/-- The next operation that a die's firmware owes; none while it waits. -/
def State.work (s : State) (d : Nat) : Option State :=
  match (s.die d).todo with
  | [] => none
  | t :: rest =>
    match s.operate d t with
    | .ok s1 l => some (s1.onDie d fun k => { k with todo := l ++ rest })
    | .waits s1 => some s1
    | .no => none

/-! ## Selection (R183-R185, R189) -/

def Queue.slot (q : Queue) : Nat := q.base + q.head.toNat % 2 ^ q.caplog * 128

/-- The lap tag of a slot (R180). -/
def Queue.tag (q : Queue) : Nat := 0x80 + q.head.toNat / 2 ^ q.caplog % 128

/-- What a look at a queue's head slot finds; `again` is a state that has forgotten what it read before the slot was
ready. -/
inductive Look
  | nothing
  | again (s : State)
  | waits (s : State)
  | bad (why : Nat) (consume : Bool)
  | unmet (sat : Nat)
  | eligible (r : Launch)

/-- Whether a dependence is satisfied by COUNT and FAILS (R183). -/
def depMet (count dval fails : Nat) : Bool := (count + 2 ^ 64 - dval % 2 ^ 64) % 2 ^ 64 < 2 ^ 63 && fails = 0

/-- The dependences from j on, with those found satisfied. -/
def State.lookDeps (s : State) (r : Launch) (sat : Nat) : List Nat → Look
  | [] => if fld sat 0 r.ndeps = 2 ^ r.ndeps - 1 then .eligible r else .unmet sat
  | j :: js =>
    match s.readNow (distAcc 0 r.asid .load) (r.daddr j) 16 with
    | .blocked s' => .waits s'
    | .ready bs =>
      if gotPoison bs then .bad 8 false
      else s.lookDeps r (if depMet (gotNat (bs.take 8)) (r.dval j) (gotNat (bs.drop 8)) then sat + 2 ^ j else sat) js

/-- Die 0 looks at queue q: it waits at a slot until that is ready (R190). -/
def State.look (s : State) (n : Nat) : Look :=
  let q := s.queue n
  if !q.v || q.state ≠ 1 || q.head = q.tail || q.stale then .nothing
  else
    let a := distAcc 0 q.asid .load
    match s.readNow a q.slot 128 with
    | .blocked s' => .waits s'
    | .ready bs =>
      if gotPoison bs then .bad 7 false
      else if (bs.getD 127 (0, false)).1.toNat ≠ q.tag then
        if (s.result? a.agent (readTag a q.slot 128)).isSome then .again (s.forgetLoads 0) else .nothing
      else
        let r : Launch := slotWords (bs.map (·.1))
        match s.why r with
        | some w => .bad w true
        | none => s.lookDeps r 0 (List.range r.ndeps)

/-- HEAD advances past a rejected head slot, then the word at QHEADA shows it (R182). -/
def State.consume (s : State) (n : Nat) : State :=
  let q := s.queue n
  let h := q.head + 1
  (s.onQueue n fun q => { q with head := h, depsat := 0, stale := false }).storeLater 0 q.asid q.heada (leBytes 8 h.toNat)

/-- A queue faults (R182). -/
def State.faultQueue (s : State) (n why : Nat) (slot : BitVec 32) : State :=
  (s.onQueue n fun q => { q with state := 3, why }).postPort (s.queue n).owner 4 0 n
    [BitVec.ofNat 64 slot.toNat, BitVec.ofNat 64 why]

/-- Whether the firmware of a die is at work on nothing. -/
def State.distIdle (s : State) (d : Nat) : Bool := s.distLive d && (s.die d).todo.isEmpty

/-- Whether die 0 may write the next entry (R183, R185, R369, R373). -/
def State.maySelect (s : State) : Bool :=
  s.distIdle 0 && s.boundary && s.ck.phase = 0 &&
    (s.logSeq < 4096 || (List.range 32).all fun d => s.logSeq + 1 ≤ s.progressOf d + 4096)

/-- Selects queue n with its record (R183): what R433 has die 0 do for the entry; RR goes on with the cursors. -/
def State.selectNode (s : State) (n : Nat) (r : Launch) : State :=
  let q := s.queue n
  let seq := s.logSeq + 1
  let slot := q.head.toNat
  let e : LogEntry := { seq, kind := 0, queue := n, slot, record := r, map := 0 }
  s.onDie 0 fun d => { d with todo := [.jwrNode seq n q.prio slot, .log e, .head seq n slot, .members seq n q.prio] }

/-- The queue to select among those eligible: highest priority, then from RR on (R183). -/
def State.choose (s : State) (l : List Nat) : Option Nat :=
  let p := (l.map fun n => (s.queue n).prio).foldl max 0
  let m := l.filter fun n => (s.queue n).prio = p
  (m.find? fun n => (s.curs 0).rr.get p 0 ≤ n).orElse fun _ => m.head?

/-- The offline map that waits for a node boundary becomes a KIND 1 entry (R187). -/
def State.appendMap (s : State) (m : BitVec 640) (r : List (BitVec 640)) : State :=
  { s with logSeq := s.logSeq + 1, mapPend := r }.writeLog
    { seq := s.logSeq + 1, kind := 1, queue := 0, slot := 0, record := [], map := m }

/-- Die 0 takes the lowest pending kick into PEND (R343, R432). -/
def State.takeKick (s : State) : Option State :=
  ((List.range 64).find? (s.die 0).kicks.getLsbD).map fun q =>
    (s.onDie 0 fun d => { d with kicks := d.kicks &&& ~~~(1#64 <<< q) }).writePend 0 (s.pend 0 ||| (1#64 <<< q))

/-- A pass over PEND: the dependences of its queues are looked at again (R184). -/
def State.pass (s : State) : State :=
  let m := s.pend 0
  let s1 : State := { s with queues := s.queues.map fun p => (p.1, if m.getLsbD p.1 then { p.2 with stale := false } else p.2) }
  (s1.writePend 0 0).forgetLoads 0

/-- One act of selection proper: an offline map, a queue that faults, waits or is set aside, else a selection. None when
there is nothing to do. -/
def State.selectNext (s : State) : Option State :=
  match s.mapPend with
  | m :: r => some (s.appendMap m r)
  | [] =>
    let looks := (List.range 64).map fun n => (n, s.look n)
    let first := looks.findSome? fun p =>
      match p.2 with
      | .waits s' => some s'
      | .again s' => some s'
      | .bad w true => some (((s.forgetLoads 0).consume p.1).faultQueue p.1 w (s.queue p.1).head)
      | .bad w false => some ((s.forgetLoads 0).faultQueue p.1 w (s.queue p.1).head)
      | .unmet sat => some ((s.forgetLoads 0).onQueue p.1 fun q => { q with stale := true, depsat := sat })
      | _ => none
    match first with
    | some s' => some s'
    | none =>
      let el := looks.filterMap fun p => match p.2 with | .eligible r => some (p.1, r) | _ => none
      match s.choose (el.map (·.1)) with
      | none => none
      | some n => ((el.find? fun p => p.1 = n).map (·.2)).map fun r => (s.forgetLoads 0).selectNode n r

/-- One act of die 0 outside an entry: a kick, a pass over PEND, selection. -/
def State.selection (s : State) : Option State :=
  if !s.distIdle 0 then none
  else match s.takeKick with
    | some s' => some s'
    | none => if s.pend 0 ≠ 0 then some s.pass else if s.maySelect then s.selectNext else none

def execNodeSelection (s : State) : Out := .next (s.selection.getD s)

/-! ## Distribution (R186, R187) -/

/-- The entry that a die applies next. -/
def State.nextEntry (s : State) (d : Nat) : Option LogEntry :=
  if s.progressOf d < s.logSeq then s.logEntry (s.progressOf d + 1) else none

/-- LOG_ENTRY_DISTRIBUTION: the next operation of a distribution or a take-over, or the start of the next entry's. The
priority in a NODE is that of the selection on die 0, on the others the queue's when the die comes to the entry. -/
def State.distribute (s : State) (d : Nat) : Option State :=
  if !s.distLive d then none
  else match (s.die d).todo with
    | t :: _ => if t.distributes then s.work d else none
    | [] =>
      match s.nextEntry d with
      | none => none
      | some e =>
        let p := (s.queue e.queue).prio
        if e.kind ≠ 0 then none
        else some (s.onDie d fun k => { k with todo := [.jwrNode e.seq e.queue p e.slot, .members e.seq e.queue p] })

def execLogEntryDistribution (die : Nat) (s : State) : Out := .next ((s.distribute die).getD s)

/-- A rotation step of a reduced cluster goes on once its die has applied a map that takes its logical core offline; binds to
that core are withheld until the scan is over (R365, R363). -/
def State.takeOffline (s : State) (d : Nat) : State :=
  (List.range 5).foldl (fun s i =>
    let m := (s.die d).lp.get i {}
    match m.step with
    | none => s
    | some (_, k) =>
      let c := 20 * d + 4 * i + k
      if m.reduced && (s.offlineOf d).getLsbD c then
        (s.onDie d fun q => { q with lp := q.lp.set i { m with taken := true } }).onCore c fun q => { q with withheld := true }
      else s) s

/-- A KIND 1 entry: the die applies the map from here on (R187). -/
def State.applyMap (s : State) (d : Nat) : Option State :=
  if !s.distIdle d then none
  else match s.nextEntry d with
    | none => none
    | some e =>
      if e.kind = 1 then
        some (((s.writeCursors d e.seq { s.cursAt d (e.seq - 1) with offline := e.map }).writeProgress d e.seq).takeOffline d)
      else none

def execOfflineMapApply (die : Nat) (s : State) : Out := .next ((s.applyMap die).getD s)

/-! ## Suspension (R189) -/

/-- The save record of a queue. -/
def State.saveWords (s : State) (n : Nat) : List Word :=
  let q := s.queue n
  [n + q.state * 64, q.head.toNat, q.tail.toNat, q.selcnt, q.lastseq, q.depsat, q.prio, (s.curs 0).rr.get q.prio 0].map
    (BitVec.ofNat 64)

def wordBytes (ws : List Word) : List Byte := ws.flatMap fun w => leBytes 8 w.toNat

/-- The end of a control-port command (R196). -/
def State.doneCmd (s : State) (port code stat : Nat) : State :=
  s.onPort port fun p => { p with busy := false, stat, code, doneN := (p.doneN + 1) % 2 ^ 32, running := none }

/-- The command that a port runs on a queue ends. -/
def State.doneOn (s : State) (n code : Nat) : State :=
  [0, 1].foldl (fun s p =>
    match (s.port p).running with
    | some (c, cmd) => if c = code ∧ cmd.queue = n then s.doneCmd p code 0 else s
    | none => s) s

/-- At a node boundary a suspend writes the save record to the address its command names and stops the queue; one behind it,
which a new owner has issued meanwhile, finds the queue not running (log entry 71). A destroy removes the queue. A store of
the record that is declined stops the queue all the same: R189 says nothing else (DESIGN CHOICE, log entry 71). -/
def State.suspendNow (s : State) (n : Nat) : Option State :=
  let q := s.queue n
  if !s.boundary || !s.distRuns 0 || !q.v then none
  else match q.saves with
    | (port, addr) :: r =>
      let stops (q : Queue) : Queue := { q with saves := r, state := 2, saved := q.state }
      if q.state ≠ 1 then some ((s.onQueue n fun q => { q with saves := r }).doneCmd port 0x12 7)
      else match s.storeNow 0 q.asid addr (wordBytes (s.saveWords n)) with
        | .still => none
        | .went s' => some s'
        | .got _ _ s' => some ((s'.onQueue n stops).doneCmd port 0x12 0)
    | [] => if q.dying then some ((s.onQueue n fun _ => {}).doneOn n 0x11) else none

def execQueueSuspendBoundary (q : Nat) (s : State) : Out := .next ((s.suspendNow q).getD s)

/-! ## Event records (R344, R429) -/

/-- EVENT_RECORD_POST: the oldest waiting record enters the queue when there is room; a completion record has die 0 look at
every dependence again (R184). -/
def execEventRecordPost (die : Nat) (s : State) : Out :=
  .next (match (s.die die).evWait with
    | [] => s
    | r :: rest =>
      if s.evLoad die < 4096 then
        let s1 := s.onDie die fun d => { d with evq := d.evq ++ [r], evWait := rest }
        if r.kind = 2 then
          ({ s1 with queues := s1.queues.map fun p => (p.1, { p.2 with stale := false }) } : State).forgetLoads 0
        else s1
      else s)

/-- The records a distributor has not taken. -/
def Die.untaken (d : Die) : List EvRec := if d.evHeld then d.evq.drop 1 else d.evq

/-- lx.evget: the held record leaves, the oldest remaining one is held (R429). -/
def Die.take (d : Die) : Die := { d with evq := d.untaken, evHeld := !d.untaken.isEmpty }

/-! ## Completion (R188, R433) -/

/-- Whether the end of a spawned task has to wait until the die has applied its node's entry (R188). -/
def State.endHeld (s : State) (d : Nat) (r : EvRec) : Bool :=
  bit (r.w 0) 63 && (s.shareOf d (r.w 3) (some (r.words.getD 1 0))).isNone && s.progressOf d < s.logSeq

/-- TASK_END_RECORD: what is owed for the last record, else the next record when it is a task end. -/
def State.taskEnd (s : State) (d : Nat) : Option State :=
  if !s.distLive d then none
  else match (s.die d).todo with
    | t :: _ => if t.distributes then none else s.work d
    | [] =>
      match (s.die d).untaken with
      | r :: _ =>
        if r.kind = 1 && !s.endHeld d r then some (s.onDie d fun k => { k.take with todo := [.taskEnd r] }) else none
      | [] => none

def execTaskEndRecord (die : Nat) (s : State) : Out := .next ((s.taskEnd die).getD s)

/-! ## The other records (R31, R73, R272, R352) -/

/-- A fault record is passed on to the owning port of its ASID, or dropped when the ASID is gone. -/
def State.passFault (s : State) (d : Nat) (r : EvRec) : State :=
  match (s.spaces.find? fun p => p.1 = fld (r.w 1) 0 6).map (·.2) with
  | none => s
  | some a => s.postPort a.owner 5 d 0 r.words

/-- A fault record as the distributor takes it (R31): on a page of its retirement list it is answered when the page leaves
the list, one of a migration that is over at once; any other is passed on. -/
def State.takeFault (s : State) (d : Nat) (r : EvRec) : State :=
  let mine (m : Migration) : Bool := m.asid = fld (r.w 1) 0 6 && pageOf m.va = pageOf (r.w 0)
  if (s.die d).retire.any mine then
    s.onDie d fun k => { k with retire := k.retire.map fun m => if mine m then { m with asked := true } else m }
  else if fld (r.w 1) 8 4 = 6 then s.answer (fld (r.w 1) 0 6) (r.w 0) false
  else s.passFault d r

/-- The pages of a faulted row join a die's retirement list (R36, R73). -/
def State.takeRow (s : State) (d : Nat) (r : EvRec) : State :=
  s.onDie d fun k =>
    { k with retire := k.retire ++ (s.piecesOf d (r.w 0 % 2 ^ 36 / 2 ^ 16)).filter fun m =>
        !(k.retire.any fun n => n.asid = m.asid && n.va = m.va) }

/-- The resident firmware takes a record that is no task end, then goes on with the pages it retires. -/
def State.firmware (s : State) (d : Nat) : Option State :=
  if !s.distIdle d then none
  else
    let s1 := s.onDie d Die.take
    let pages := s.retirePage d
    match (s.die d).untaken with
    | [] => pages
    | r :: _ =>
      match r.kind with
      | 1 => pages
      | 3 => some (s1.takeFault d r)
      | 4 => some (s1.takeRow d r)
      | 5 =>
        if 4 ≤ fld (r.w 0) 5 3 then some s1
        else some { s1 with agenda := s1.agenda ++ [.event (.hactUnwind (20 * d + fld (r.w 0) 0 5) (fld (r.w 0) 5 3))] }
      | 6 => some (s1.postPort (s.queue (r.w 3)).owner 1 d (r.w 3 % 64) r.words)
      | _ => some s1

/-! ## Port records (R345, R393) -/

/-- The bytes of a port record. -/
def PortRec.bytes (r : PortRec) : List Byte :=
  wordBytes (BitVec.ofNat 64 (r.typ + r.die * 2 ^ 8 + r.queue * 2 ^ 13) :: (r.words ++ List.replicate (7 - r.words.length) 0))

def Port.full (p : Port) : Bool := (p.evtail - p.evhead).toNat ≥ 2 ^ p.evcap

/-- The first record of a port that its die's event queue can hold: one not yet held, of a die with room (R344, R393). -/
def State.recToHold (s : State) (p : Port) : Option Nat :=
  p.recs.findIdx? fun r => !r.held && s.evLoad r.die < 4096

/-- A record is held in its die's event queue; EVLOST counts it when the ring is full (R393). -/
def Port.hold (p : Port) (i : Nat) (full : Bool) : Port :=
  { p with recs := p.recs.modify i fun r => { r with held := true }
           evlost := if full then min (p.evlost + 1) (2 ^ 32 - 1) else p.evlost }

/-- PORT_RECORD_DELIVERY: the oldest record of a port goes to the host's ring; while that is full, the link lost or the ring
disabled, records wait in their die's event queue, and their senders when that is full too. -/
def State.deliverRecord (s : State) (n : Nat) : Option State :=
  let p := s.port n
  let off := p.linkLost || p.evbase = 0
  match p.recs with
  | [] => none
  | r :: rest =>
    if off || p.full then (s.recToHold p).map fun i => s.onPort n fun p => p.hold i (!off)
    else some ((s.poke (hostKey (p.evbase + 64 * (p.evtail.toNat % 2 ^ p.evcap))) r.bytes).onPort n fun p =>
      { p with recs := rest, evtail := p.evtail + 1, msix := p.msix + 1 })

def execPortRecordDelivery (port : Nat) (s : State) : Out := .next ((s.deliverRecord port).getD s)

/-! ## Hand-over and halted contexts (R338, R352) -/

/-- DISTRIBUTOR_HANDOVER: the primary halts, the relief starts at offset 0 with the primary's mcause (R338); as resident
firmware it takes over first (R434). -/
def State.handOver (s : State) (die mcause : Nat) : State :=
  if (s.die die).role then s
  else
    let s1 := if s.mgmt.fw.isEmpty then s.abandon die true else s.forget (.dist die)
    s1.onDie die fun d =>
      { d with role := true, evHeld := false, prim := { d.prim with halted := true, mcause }, todo := [.takeOver]
               relf := { d.relf with pc := 2 ^ 63, halted := false, wfi := false, x := [(10, BitVec.ofNat 64 mcause)] } }

def execDistributorHandover (die mcause : Nat) (s : State) : Out := .next (s.handOver die mcause)

/-- DISTRIBUTION_LOST: the relief halts too. -/
def State.loseDist (s : State) (die mcause : Nat) : State :=
  if !(s.die die).role || (s.die die).lost then s
  else (s.onDie die fun d => { d with lost := true, relf := { d.relf with halted := true, mcause } }).postBoth 19 die 0
    [BitVec.ofNat 64 die, BitVec.ofNat 64 mcause]

def execDistributionLost (die mcause : Nat) (s : State) : Out := .next (s.loseDist die mcause)

/-- A halted context is unwound or failed once it is settled (R352). -/
def State.hact (s : State) (c x : Nat) (fail : Bool) : State :=
  if (s.ctx c x).status = .halted then
    s.onCtx c x fun k => { k with status := .waiting (.stopping 0 (fail || k.regions.isEmpty)) }
  else s

def execHactUnwind (core ctx : Nat) (s : State) : Out := .next (s.hact core ctx false)
def execHactFail (core ctx : Nat) (s : State) : Out := .next (s.hact core ctx true)

end Sys2Proof.Machine
end

