-- ==== Sys2Proof/Machine/HostPort.lean ====
section
/-! DEFINITION. Control ports: the LAMP (R192), QTAIL and EVHEAD (R179, R393), commands and their status (R193, R194,
R196), queue commands (R189, R194), the context action (R360), address spaces and fault answers (R30, R32, R35). -/

namespace Sys2Proof.Machine

/-! ## Commands (R196) -/

/-- Status codes of R196. -/
inductive Stat
  | done | notOwner | noLamp | unknown | exists | range | notRegistered | notRunning | notSuspended | noTask | disabled
  | notQuiesced | pending | notReady | none | notStandby | list | declined | format | latency | duplicate | unresolved
  | reloc | certificate | full | inUse | busy | image
  deriving DecidableEq, Repr

def Stat.code : Stat → Nat
  | .done => 0 | .notOwner => 1 | .noLamp => 2 | .unknown => 3 | .exists => 4 | .range => 5 | .notRegistered => 6
  | .notRunning => 7 | .notSuspended => 8 | .noTask => 9 | .disabled => 10 | .notQuiesced => 11 | .pending => 12
  | .notReady => 13 | .none => 14 | .notStandby => 15 | .list => 16 | .declined => 17 | .format => 18 | .latency => 19
  | .duplicate => 20 | .unresolved => 21 | .reloc => 22 | .certificate => 23 | .full => 24 | .inUse => 25 | .busy => 26
  | .image => 27

/-- A command ends with a status. -/
def State.ends (s : State) (c : Cmd) (code : Nat) (st : Stat) : State := s.doneCmd c.port code st.code

/-- Operand bits of a value at or above `n` are 0. -/
def below (x n : Nat) : Bool := x < 2 ^ n

/-- Whether the package accepts a command: all once it is ready, reset and image change in recovery (R436). -/
def State.accepts (s : State) (code : Nat) : Bool :=
  s.mgmt.bootPhase = 7 || (s.mgmt.recov && (code = 0x27 || code = 0x28))

/-- A write of CMD (R196): ignored while a command runs or the package does not accept it (R436); "range" first when a
bit that the entry does not name is set; then the command. `names` says whether it names a queue. -/
def State.startCmd (s : State) (c : Cmd) (code : Nat) (names ok : Bool) (body : State → State) : State :=
  if (s.port c.port).busy || !s.accepts code then s
  else
    let s1 := s.onPort c.port fun p => { p with busy := true, running := some (code, c) }
    if !ok || (!names && c.queue ≠ 0) then s1.ends c code .range else body s1

/-- No operand is used. -/
def noOps (c : Cmd) : Bool := c.op0 = 0 && c.op1 = 0 && c.op2 = 0 && c.op3 = 0
def onlyOp0 (c : Cmd) : Bool := c.op1 = 0 && c.op2 = 0 && c.op3 = 0

/-- HOLDER's code of a port (R192). -/
def lampOf (port : Nat) : Nat := port + 1

/-- Goes on when the port holds the LAMP (R193). -/
def State.withLamp (s : State) (c : Cmd) (code : Nat) (body : State → State) : State :=
  if s.lamp = lampOf c.port then body s else s.ends c code .noLamp

/-- Goes on when the port owns the queue (R178). -/
def State.withOwner (s : State) (c : Cmd) (code : Nat) (body : State → State) : State :=
  let q := s.queue c.queue
  if q.v && q.owner = c.port then body s else s.ends c code .notOwner

/-! ## The LAMP and index registers -/

/-- Whether a port accepts the LAMP: the package is ready or in recovery (R436), not in reset. -/
def State.portUp (s : State) : Bool := s.mgmt.bootPhase = 7 || s.mgmt.recov

/-- LAMP_TAKE, LAMP_DROP (R192). -/
def State.lampTake (s : State) (port : Nat) : State := if s.portUp && s.lamp = 0 then { s with lamp := lampOf port } else s
def State.lampDrop (s : State) (port : Nat) : State := if s.portUp && s.lamp = lampOf port then { s with lamp := 0 } else s

def execLampTake (port : Nat) (s : State) : Out := .next (s.lampTake port)
def execLampDrop (port : Nat) (s : State) : Out := .next (s.lampDrop port)

/-- The rule of R179: an index goes forward only. -/
def forward (old new : BitVec 32) : Bool := 1 ≤ (new - old).toNat && (new - old).toNat ≤ 2 ^ 31 - 1

/-- A pending-kick bit (R343), which has die 0 look at the queue's dependences again (R184). -/
def State.kick (s : State) (q : Nat) : State := s.onDie 0 fun d => { d with kicks := d.kicks ||| (1#64 <<< q) }

/-- QTAIL_WRITE (R178, R179, R343). -/
def State.qtail (s : State) (port q v : Nat) : State :=
  let k := s.queue q
  if k.v && k.owner = port && forward k.tail (BitVec.ofNat 32 v) then
    (s.onQueue q fun k => { k with tail := BitVec.ofNat 32 v }).kick q
  else s

def execQtailWrite (port q v : Nat) (s : State) : Out := .next (s.qtail port q v)

/-- EVHEAD_WRITE (R393); only a ready package takes it (R436). -/
def State.evhead (s : State) (port v : Nat) : State :=
  s.onPort port fun p => if s.mgmt.bootPhase = 7 && forward p.evhead (BitVec.ofNat 32 v) then { p with evhead := BitVec.ofNat 32 v } else p

def execEvheadWrite (port v : Nat) (s : State) : Out := .next (s.evhead port v)

/-- BRERR_CLEAR (R392); only a ready package takes it (R436). -/
def State.brerrClear (s : State) (port : Nat) : State :=
  if s.mgmt.bootPhase = 7 then s.onPort port fun p => { p with brerr := 0 } else s

def execBrerrClear (port : Nat) (s : State) : Out := .next (s.brerrClear port)

/-! ## Queue commands (R189, R194) -/

/-- Command 0x10. A queue of the other port is answered "exists": R194 lists that for a create, and the "not owner" of
R178 for the commands on a queue (DESIGN CHOICE, log entry 60). -/
def State.queueCreate (s : State) (c : Cmd) : State :=
  let prio := fld c.op0 0 3
  let cap := fld c.op0 8 5
  let asid := fld c.op0 16 6
  let ok := fld c.op0 3 5 = 0 && fld c.op0 13 3 = 0 && below c.op0 22 && below c.op1 56 && below c.op2 56 && c.op3 = 0
  s.startCmd c 0x10 true ok fun s =>
    if (s.queue c.queue).v then s.ends c 0x10 .exists
    else if cap < 3 || 16 < cap || c.op1 % 128 ≠ 0 || c.op2 % 8 ≠ 0 then s.ends c 0x10 .range
    else if !(s.spaces.any fun p => p.1 = asid) then s.ends c 0x10 .notRegistered
    else (s.onQueue c.queue fun _ =>
      { v := true, owner := c.port, prio, caplog := cap, asid, base := c.op1, heada := c.op2, state := 1 }).ends c 0x10 .done

def execQueueCreate (c : Cmd) (s : State) : Out := .next (s.queueCreate c)

/-- Destroy waits for the node boundary (R194). -/
def State.queueDestroy (s : State) (c : Cmd) : State :=
  s.startCmd c 0x11 true (noOps c) fun s => s.withOwner c 0x11 fun s => s.onQueue c.queue fun q => { q with dying := true }

def execQueueDestroy (c : Cmd) (s : State) : Out := .next (s.queueDestroy c)

/-- A save address: 64-byte aligned (R196). -/
def saveOk (c : Cmd) : Bool := onlyOp0 c && below c.op0 56 && c.op0 % 64 = 0

def State.queueSuspend (s : State) (c : Cmd) : State :=
  s.startCmd c 0x12 true (saveOk c) fun s => s.withOwner c 0x12 fun s =>
    if (s.queue c.queue).state ≠ 1 then s.ends c 0x12 .notRunning
    else s.onQueue c.queue fun q => { q with saves := q.saves ++ [(c.port, c.op0)] }

def execQueueSuspend (c : Cmd) (s : State) : Out := .next (s.queueSuspend c)

/-- The record a resume reloads into a suspended queue: HEAD, SELCNT, LASTSEQ, DEPSAT, PRIO (R189); its RRHINT goes to RR
of that priority. WHY stays the cause of the last fault (R177). -/
def Queue.reload (q : Queue) (ws : List Word) : Queue :=
  let w (i : Nat) : Nat := (ws.getD i 0).toNat
  { q with head := BitVec.ofNat 32 (w 1), selcnt := w 3, lastseq := w 4, depsat := w 5 % 8, prio := w 6 % 8, state := 1
           stale := false }

/-- RR of a priority in the cursors that die 0 uses next. -/
def State.setRr (s : State) (prio n : Nat) : State :=
  s.fwStore 0 (copyKey 0 (s.progressOf 0) + 8 + prio) (leBytes 1 n)

/-- A resume: a suspended queue reloads its record, which may have to wait (none); a faulted one runs again. Bytes of the
record whose read is declined or poisoned are reloaded as they come, and the command ends with "done": R189 says nothing
else (DESIGN CHOICE, log entry 71). -/
def State.resumeNow (s : State) (c : Cmd) : Option State :=
  let q := s.queue c.queue
  if q.state = 2 then
    match s.askRead (distAcc 0 q.asid .load) (2 * c.port) [] [(c.op0, 64)] with
    | .still => none
    | .went s1 => some s1
    | .got p _ s1 =>
      let bs := p.data.flatten
      let ws : List Word := (List.range 8).map fun i => BitVec.ofNat 64 (gotNat ((bs.drop (8 * i)).take 8))
      let s2 := (s1.onQueue c.queue fun q => q.reload ws).setRr (fld (ws.getD 6 0).toNat 0 3) (fld (ws.getD 7 0).toNat 0 6)
      some ((s2.kick c.queue).ends c 0x13 .done)
  else some (((s.onQueue c.queue fun q => { q with state := 1 }).kick c.queue).ends c 0x13 .done)

def State.queueResume (s : State) (c : Cmd) : State :=
  s.startCmd c 0x13 true (saveOk c) fun s => s.withOwner c 0x13 fun s =>
    if (s.queue c.queue).state < 2 then s.ends c 0x13 .notSuspended else (s.resumeNow c).getD s

def execQueueResume (c : Cmd) (s : State) : Out := .next (s.queueResume c)

/-- Command 0x14. Of a queue whose V is 0 and no LAMP, "no LAMP" is reported: R194 lists only that, and R178 gives no order
(DESIGN CHOICE, log entry 72). -/
def State.queueTransfer (s : State) (c : Cmd) : State :=
  s.startCmd c 0x14 true (noOps c) fun s => s.withLamp c 0x14 fun s =>
    if !(s.queue c.queue).v then s.ends c 0x14 .notOwner
    else (s.onQueue c.queue fun q => { q with owner := 1 - q.owner }).ends c 0x14 .done

def execQueueTransfer (c : Cmd) (s : State) : Out := .next (s.queueTransfer c)

def State.kickCmd (s : State) (c : Cmd) : State :=
  s.startCmd c 0x15 true (noOps c) fun s => s.withOwner c 0x15 fun s => (s.kick c.queue).ends c 0x15 .done

def execKick (c : Cmd) (s : State) : Out := .next (s.kickCmd c)

/-- The 640-bit map comes from host memory and waits for a node boundary (R187). -/
def State.offlineMap (s : State) (c : Cmd) : State :=
  s.startCmd c 0x16 false (onlyOp0 c) fun s => s.withLamp c 0x16 fun s =>
    { s with mapPend := s.mapPend ++ [BitVec.ofNat 640 (s.nat (hostKey c.op0) 80)] }.ends c 0x16 .done

def execOfflineMap (c : Cmd) (s : State) : Out := .next (s.offlineMap c)

/-! ## Context action (R360) -/

def State.contextAction (s : State) (c : Cmd) : State :=
  s.startCmd c 0x18 false (onlyOp0 c && below c.op0 14) fun s =>
    let core := fld c.op0 0 10
    let x := fld c.op0 10 2
    let act := fld c.op0 12 2
    let k := s.ctx core x
    if act = 0 || act = 3 then s.ends c 0x18 .unknown
    else match k.task with
      | none => s.ends c 0x18 .noTask
      | some t =>
        let q := s.queue t.queue
        if !(q.v && q.owner = c.port) then s.ends c 0x18 .notOwner
        else if k.status = .halted then (s.hact core x (act = 2)).ends c 0x18 .done
        else (s.onCtx core x fun k => { k with stop := some (act = 2) }).ends c 0x18 .done

def execContextAction (c : Cmd) (s : State) : Out := .next (s.contextAction c)

/-! ## Address spaces (R16, R30, R35) -/

def State.owns (s : State) (port asid : Nat) : Bool := s.spaces.any fun p => p.1 = asid && p.2.owner = port
def State.registered (s : State) (asid : Nat) : Bool := s.spaces.any fun p => p.1 = asid

def State.registerSpace (s : State) (c : Cmd) : State :=
  s.startCmd c 0x30 false (below c.op0 6 && c.op2 = 0 && c.op3 = 0) fun s =>
    if s.registered c.op0 then s.ends c 0x30 .exists
    else if 2 ^ 48 ≤ c.op1 || c.op1 % 2048 ≠ 0 || !s.paOk c.op1 2048 then s.ends c 0x30 .range
    else { s with spaces := s.spaces ++ [(c.op0, ({ root := c.op1, owner := c.port } : AddrSpace))] }.ends c 0x30 .done

def execRegisterAddressSpace (c : Cmd) (s : State) : Out := .next (s.registerSpace c)

/-- Declines parked accesses of an address space, page by page, until none is left: one that goes on may park on another
of its pages (R32, R35). -/
def State.declineFrom (s : State) (asid : Nat) : Nat → State
  | 0 => s
  | n + 1 =>
    match s.parked.find? fun p => p.asid = asid with
    | none => s
    | some p => (s.answerPage asid (p.page * 2 ^ 16) true).declineFrom asid n

/-- No fewer than the pages on which a request can come to park: those of its bytes, and of the places where a leaf's
conversion puts its elements (R97), at most two for each. -/
def Req.rounds (r : Req) : Nat := r.pages.length + (r.pieces.map fun p => 4 * p.size + 4).sum

/-- Declines every parked access of an address space; each round takes one page off the accesses parked there, so as many
rounds as there are pages they can park on are enough. -/
def State.declineSpace (s : State) (asid : Nat) : State :=
  s.declineFrom asid (((s.parked.filter fun p => p.asid = asid).map fun p => p.req.rounds + 1).sum +
    ((s.net.filter fun r => r.asid = asid).map fun r => r.rounds + 1).sum)

def State.tearDown (s : State) (c : Cmd) : State :=
  s.startCmd c 0x31 false (onlyOp0 c && below c.op0 6) fun s => s.withLamp c 0x31 fun s =>
    if !s.registered c.op0 then s.ends c 0x31 .notRegistered
    else if (s.queues.any fun q => q.2.v && q.2.asid = c.op0) || (s.windows.any fun w => w.2.v && w.2.asid = c.op0) then
      s.ends c 0x31 .inUse
    else
      let s1 := (s.declineSpace c.op0).dropTlb fun e => e.asid = c.op0
      { s1 with spaces := s1.spaces.filter fun p => p.1 ≠ c.op0, symbols := s1.symbols.filter fun p => p.1 ≠ c.op0
                objects := s1.objects.filter fun o => o.asid ≠ c.op0 }.ends c 0x31 .done

def execTearDownAddressSpace (c : Cmd) (s : State) : Out := .next (s.tearDown c)

def State.invalidateCmd (s : State) (c : Cmd) : State :=
  s.startCmd c 0x32 false (below c.op0 6 && c.op3 = 0) fun s =>
    if !s.registered c.op0 then s.ends c 0x32 .notRegistered
    else if !s.owns c.port c.op0 then s.ends c 0x32 .notOwner
    else (s.invalidate c.op0 c.op1 c.op2).ends c 0x32 .done

def execTranslationInvalidate (c : Cmd) (s : State) : Out := .next (s.invalidateCmd c)

/-- An answer that names the MTU, the address space and the page (R32). -/
def State.answerAt (s : State) (die mtu asid va : Nat) (decline : Bool) : State :=
  if homeDie va = die && mtuOf va = mtu then s.answer asid va decline else s

def State.faultAnswer (s : State) (c : Cmd) : State :=
  s.startCmd c 0x33 false (fld c.op0 14 2 = 0 && below c.op0 17 && c.op2 = 0 && c.op3 = 0) fun s =>
    let asid := fld c.op0 8 6
    if 4 < fld c.op0 5 3 then s.ends c 0x33 .range
    else if !s.registered asid then s.ends c 0x33 .notRegistered
    else if !s.owns c.port asid then s.ends c 0x33 .notOwner
    else (s.answerAt (fld c.op0 0 5) (fld c.op0 5 3) asid c.op1 (bit c.op0 16)).ends c 0x33 .done

def execFaultAnswer (c : Cmd) (s : State) : Out := .next (s.faultAnswer c)

/-! ## Physical reads and writes (R29, R35) -/

/-- The key of a physical address. -/
def physKey (pa : Nat) : Nat := if pa / 2 ^ 48 = 1 then secondBase + pa % 2 ^ 43 else pa

/-- Whether a second-tier byte lies on a port that is down (R77, R79). -/
def State.portDown (s : State) (k : Nat) : Bool :=
  secondBase ≤ k && k < ringBase && s.cxlDown.contains (secondPlace (k - secondBase)).1

/-- Runs of a physical range that lie in one 64 KiB unit: key and length. -/
def physRuns (pa n : Nat) : List (Nat × Nat) := (cuts pa n).map fun p => (physKey p.1, p.2)

/-- Whether the streams of die `src` have room for a physical write of n bytes (R138). -/
def State.physRoom (s : State) (src pa n : Nat) : Bool := s.physOpen src ((physRuns pa n).map (·.1))

/-- A physical write by die `src`, a tracked write for each unit (R136): parts on a port that is down are declined. -/
def State.physWrite (s : State) (src pa : Nat) (bs : List Byte) : State × Bool :=
  let k0 := physKey pa
  (physRuns pa bs.length).foldl (fun (acc : State × Bool) p =>
    if s.portDown p.1 then (acc.1, true) else (acc.1.physStore src p.1 ((bs.drop (p.1 - k0)).take p.2) false, acc.2)) (s, false)

/-- A physical read: 0xFF for bytes that are declined or poisoned. -/
def State.physRead (s : State) (pa n : Nat) : List (Byte × Bool) :=
  (physRuns pa n).flatMap fun p =>
    if s.portDown p.1 then List.replicate p.2 (0xFF, true)
    else (s.bytes p.1 p.2).zipIdx.map fun (b, i) => if s.linePoison (p.1 + i) then (0xFF, true) else (b, false)

/-- The range rule of 0x34 and 0x35. -/
def State.physOk (s : State) (pa n : Nat) : Bool := 1 ≤ n && n ≤ 2 ^ 20 && s.paOk pa n

/-- Command 0x34 from its write on; none while a stream of die 0 is full (R138). -/
def State.physWriteNow (s : State) (c : Cmd) : Option State :=
  if s.physRoom 0 c.op0 c.op2 then
    let r := s.physWrite 0 c.op0 (s.bytes (hostKey c.op1) c.op2)
    some (r.1.ends c 0x34 (if r.2 then .declined else .done))
  else none

def State.physicalWrite (s : State) (c : Cmd) : State :=
  s.startCmd c 0x34 false (c.op3 = 0) fun s =>
    if !s.physOk c.op0 c.op2 then s.ends c 0x34 .range else (s.physWriteNow c).getD s

def execPhysicalWrite (c : Cmd) (s : State) : Out := .next (s.physicalWrite c)

def State.physicalRead (s : State) (c : Cmd) : State :=
  s.startCmd c 0x35 false (c.op3 = 0) fun s =>
    if !s.physOk c.op0 c.op2 then s.ends c 0x35 .range
    else
      let bs := s.physRead c.op0 c.op2
      (s.poke (hostKey c.op1) (bs.map (·.1))).ends c 0x35 (if bs.any (·.2) then .declined else .done)

def execPhysicalRead (c : Cmd) (s : State) : Out := .next (s.physicalRead c)

/-- A code that no chapter assigns (R194). -/
def execUnknownCommand (code : Nat) (c : Cmd) (s : State) : Out :=
  .next (s.startCmd c code true true fun s => s.ends c code .unknown)

end Sys2Proof.Machine
end

