-- ==== Sys2Proof/Machine/Window.lean ====
section
/-! DEFINITION. Windows (R80-R86, R394): registration, puts and gets at their target, acknowledgements at their source;
collective groups (R387). -/

namespace Sys2Proof.Machine

/-! ## Registration -/

/-- The window block of R394 in host memory: words 0 and 1 of R80 with the entry number. -/
def State.registerWindow (s : State) (c : Cmd) : State :=
  s.startCmd c 0x22 false (onlyOp0 c) fun s =>
    let w0 := s.nat (hostKey c.op0) 8
    let w1 := s.nat (hostKey c.op0 + 8) 8
    let n := fld w1 32 10
    let base := fld w0 16 31 * 2 ^ 16
    let size := fld w1 0 32
    let asid := fld w0 8 6
    if (s.window n).v || !s.registered asid || size = 0 || 2 ^ 31 ≤ size || 2 ^ 47 < base + size * 2 ^ 16 then
      s.ends c 0x22 .range
    else (s.onWindow n fun _ => { v := true, puten := bit w0 1, geten := bit w0 2, asid, base, size }).ends c 0x22 .done

def execRegisterWindow (c : Cmd) (s : State) : Out := .next (s.registerWindow c)

/-- A window whose deregistration waits becomes free once nothing accepted is left (R86). -/
def State.closeWindow (s : State) (n : Nat) : State :=
  let ports := (s.window n).closing
  if ports.isEmpty || s.puts.any (fun f => f.p.win = n) then s
  else ports.foldl (fun s p => s.doneCmd p 0x23 Stat.done.code) (s.onWindow n fun w => { w with v := false, closing := [] })

def State.deregisterWindow (s : State) (c : Cmd) : State :=
  s.startCmd c 0x23 false (onlyOp0 c && below c.op0 10) fun s =>
    if !(s.window c.op0).v then s.ends c 0x23 .notRegistered
    else (s.onWindow c.op0 fun w => { w with puten := false, geten := false, closing := w.closing ++ [c.port] }).closeWindow c.op0

def execDeregisterWindow (c : Cmd) (s : State) : Out := .next (s.deregisterWindow c)

/-! ## Acknowledgements at the source (R83) -/

/-- The number of a put context is complete. -/
def State.putAck (s : State) (core wp num : Nat) (poison : Bool) : State :=
  s.onTl core (.wp wp) fun t => t.finish num poison

def execPutAckArrival (core wp num : Nat) (poison : Bool) (s : State) : Out := .next (s.putAck core wp num poison)

/-- The data of a get reaches its put context, which writes it locally. -/
def State.getData (s : State) (core wp num : Nat) (data : List (Byte × Bool)) : State :=
  s.onTl core (.wp wp) fun t =>
    { t with queue := t.queue.map fun i =>
        if i.num = num then (match i.cmd with | .get la _ _ _ _ true => { i with cmd := .got la data } | _ => i) else i }

/-- An acknowledgement leaves for the source. -/
def State.ackSource (s : State) (p : WinPacket) (poison : Bool) : State :=
  if p.srcPkg = s.fabric.coords then
    { s with agenda := s.agenda ++ [.event (.putAckArrival p.srcCore p.srcWp p.num poison)] }
  else s.queuePacket 0 1 p.srcPkg false (.putAck p.srcCore p.srcWp p.num poison)

/-- The data of a get leaves for the source. -/
def State.dataSource (s : State) (p : WinPacket) (data : List (Byte × Bool)) : State :=
  if p.srcPkg = s.fabric.coords then s.getData p.srcCore p.srcWp p.num data
  else (dataPackets p.srcCore p.srcWp p.num data).foldl (fun s b => s.queuePacket 0 1 p.srcPkg false b) s

/-! ## Puts and gets at the target -/

/-- Whether every byte lies in the window (R84). -/
def Window.holds (w : Window) (p : WinPacket) : Bool := p.offset + p.len ≤ w.size * 2 ^ 16

/-- A rejection (R84). -/
def State.rejectWin (s : State) (p : WinPacket) : State :=
  (s.onWindow p.win fun w => { w with rejects := min (w.rejects + 1) (2 ^ 32 - 1) }).ackSource p true

/-- WINDOW_PUT_ARRIVAL (R82, R84): an accepted put becomes a tracked write of the package (R136, R143), which waits
while a stream it needs is full (R138). -/
def State.putArrives (s : State) (p : WinPacket) : State :=
  let w := s.window p.win
  if !w.v || !w.puten || !w.holds p then s.rejectWin p
  else
    let pieces := rawRuns (w.base + p.offset) p.data
    let hs := homesOf .window pieces
    let r : Req := { id := s.nextId, agent := .window, kind := .put, asid := w.asid, pieces, ret := .none, atom := none,
                     key := 0, rstep := 0, stage := .home, src := 0, homes := hs.map fun h => (h, 0), deps := [], decl := [] }
    let s1 : State := { s with nextId := s.nextId + 1
                               puts := s.puts ++ [{ id := r.id, p, get := false, done := false, bad := false }] }
    if s.streamOpen 0 hs then
      let out := s1.numbered 0 hs
      let q : Req := { r with homes := out.2 }
      { out.1 with net := out.1.net ++ [{ q with stage := if s.homeTakes q then .home else .sent }] }
    else { s1 with net := s1.net ++ [{ r with stage := .flush }] }

def execWindowPutArrival (p : WinPacket) (s : State) : Out := .next (s.putArrives p)

/-- WINDOW_PUT_APPLIED (R82, R83): COUNT advances, and the acknowledgement leaves. -/
def State.putApplied (s : State) (n : Nat) : Option State :=
  match s.puts.find? fun f => f.id = n && f.done && !f.get with
  | none => none
  | some f =>
    let s1 := s.onWindow f.p.win fun w =>
      { w with count := (w.count + 1) % 2 ^ 64, bad := if f.bad then w.bad ++ [(w.count + 1) % 2 ^ 64] else w.bad }
    some ((({ s1 with puts := s1.puts.filter fun g => g.id ≠ n } : State).ackSource f.p f.bad).closeWindow f.p.win)

def execWindowPutApplied (n : Nat) (s : State) : Out := .next ((s.putApplied n).getD s)

/-- The read of an accepted get; none while it waits. -/
def State.getAnswer (s : State) (f : PutFlight) : Option State :=
  let w := s.window f.p.win
  let a : Acc := { agent := .window, kind := .get, asid := w.asid }
  match s.askRead a f.id [] [(w.base + f.p.offset, f.p.len)] with
  | .still => none
  | .went s1 => some s1
  | .got p _ s1 =>
    some ((({ s1 with puts := s1.puts.filter fun g => g.id ≠ f.id } : State).dataSource f.p p.data.flatten).closeWindow f.p.win)

/-- Whether a get is this one: its source and its number. -/
def PutFlight.is (f : PutFlight) (p : WinPacket) : Bool :=
  f.get && f.p.srcPkg = p.srcPkg && f.p.srcCore = p.srcCore && f.p.srcWp = p.srcWp && f.p.num = p.num

/-- WINDOW_GET_ARRIVAL (R83, R84): a get is rejected, or accepted and answered once its bytes can be read. -/
def State.getArrives (s : State) (p : WinPacket) : Option State :=
  match s.puts.find? fun f => f.is p with
  | some f => s.getAnswer f
  | none =>
    let w := s.window p.win
    if !w.v || !w.geten || !w.holds p then some (s.rejectWin p)
    else
      let f : PutFlight := { id := s.nextId, p, get := true, done := false, bad := false }
      let s1 := { s with nextId := s.nextId + 1, puts := s.puts ++ [f] }
      some ((s1.getAnswer f).getD s1)

def execWindowGetArrival (p : WinPacket) (s : State) : Out := .next ((s.getArrives p).getD s)

/-! ## Collective groups (R387) -/

/-- The group block of R387. -/
structure GroupBlk where
  group : Nat
  tree : Bool
  cmb : Bool
  asid : Nat
  size : Nat
  rank : Nat
  list : Nat

def groupOf (bs : List Byte) : Option GroupBlk :=
  let f (i n : Nat) : Nat := leNat ((bs.drop i).take n)
  if f 0 2 < 4096 && f 2 1 < 4 && f 3 1 < 64 && 2 ≤ f 4 4 && f 4 4 ≤ 65536 && f 12 4 = 0 && f 24 8 = 0 then
    some { group := f 0 2, tree := bit (f 2 1) 0, cmb := bit (f 2 1) 1, asid := f 3 1, size := f 4 4, rank := f 8 4
           list := f 16 8 }
  else none

/-- The check of LIST, which may have to wait for its pages; none while it waits. -/
def State.groupList (s : State) (c : Cmd) (b : GroupBlk) : Option State :=
  let a : Acc := { agent := .host c.port, kind := .load, asid := b.asid }
  match s.askRead a 1 [] [(b.list, 4 * b.size)] with
  | .still => none
  | .went s1 => some s1
  | .got p _ s1 =>
    let bs := p.data.flatten
    let l := (List.range b.size).map fun i => gotNat ((bs.drop (4 * i)).take 4)
    if gotPoison bs then some (s1.ends c 0x20 .declined)
    else if l.getD b.rank (2 ^ 32) ≠ s1.fabric.coords || l.eraseDups.length ≠ l.length || l.any (fun x => 2 ^ 18 ≤ x) then
      some (s1.ends c 0x20 .list)
    else
      let g : Group := { tree := b.tree, cmb := b.cmb, asid := b.asid, size := b.size, rank := b.rank, list := l, started := 0 }
      some ({ s1 with groups := s1.groups.set b.group g }.ends c 0x20 .done)

/-- Register group, from its block on; it goes on when its pages are there. -/
def State.groupCmd (s : State) (c : Cmd) : Option State :=
  let bs := s.bytes (hostKey c.op0) 32
  if s.groups.any fun p => p.1 = leNat (bs.take 2) then some (s.ends c 0x20 .exists)
  else match groupOf bs with
    | none => some (s.ends c 0x20 .range)
    | some b => s.groupList c b

def State.registerGroup (s : State) (c : Cmd) : State :=
  s.startCmd c 0x20 false (onlyOp0 c) fun s => (s.groupCmd c).getD s

def execRegisterGroup (c : Cmd) (s : State) : Out := .next (s.registerGroup c)

/-- A group whose deregistration waits is freed once its started collectives have completed (R387). -/
def State.closeGroup (s : State) (n : Nat) : Option State :=
  match (s.groups.find? fun p => p.1 = n).map (·.2) with
  | none => none
  | some g =>
    if g.closing.isEmpty || !s.groupIdle n then none
    else some (g.closing.foldl (fun s p => s.doneCmd p 0x21 Stat.done.code)
      { s with groups := s.groups.filter fun p => p.1 ≠ n })

def State.deregisterGroup (s : State) (c : Cmd) : State :=
  s.startCmd c 0x21 false (onlyOp0 c && below c.op0 12) fun s =>
    match (s.groups.find? fun p => p.1 = c.op0).map (·.2) with
    | none => s.ends c 0x21 .done
    | some g =>
      let s1 : State := { s with groups := s.groups.set c.op0 { g with closing := g.closing ++ [c.port] } }
      (s1.closeGroup c.op0).getD s1

def execDeregisterGroup (c : Cmd) (s : State) : Out := .next (s.deregisterGroup c)

end Sys2Proof.Machine
end

