-- ==== Sys2Proof/Machine/Load.lean ====
section
/-! DEFINITION. Code objects (R396-R399), loading, linking and unloading them (R400-R403), certificates and resident
images (R408, R409). -/

namespace Sys2Proof.Machine

/-! ## Code objects (R396-R399) -/

/-- A segment (R397) with its bytes, zero-filled to MSIZE; `bad`: the read of its bytes was declined or poisoned. -/
structure Seg where
  vaddr : Nat
  msize : Nat
  text : Bool
  data : List Byte
  bad : Bool := false

/-- A symbol of an object (R398). -/
structure Sym where
  name : List Byte
  bind : Nat
  stype : Nat
  seg : Nat
  value : Nat
  size : Nat

/-- A relocation (R399). -/
structure Rel where
  seg : Nat
  kind : Nat
  sym : Nat
  off : Nat
  hoff : Nat
  a : Int

/-- A parsed object. -/
structure Object where
  kind : Nat
  latset : Nat
  segs : List Seg
  syms : List Sym
  rels : List Rel
  cert : List Byte

/-- Little-endian field of `n` bytes at offset `i`. -/
def imgNat (img : List Byte) (i n : Nat) : Nat := leNat ((img.drop i).take n)

/-- Bytes of the header and the tables. -/
def tableLen (img : List Byte) : Nat :=
  [64, imgNat img 24 8 + 32 * imgNat img 8 4, imgNat img 32 8 + 24 * imgNat img 12 4, imgNat img 40 8 + 24 * imgNat img 16 4,
   imgNat img 48 8 + imgNat img 20 4, if imgNat img 6 1 = 1 then imgNat img 56 8 + 256 else 0].foldl max 0

/-- The header rules of R396; LATSET is looked at later. -/
def headerOk (img : List Byte) : Bool :=
  imgNat img 0 4 = 0x434B594C && imgNat img 4 2 = 1 && imgNat img 6 1 < 2 && 1 ≤ imgNat img 8 4 && imgNat img 8 4 ≤ 64 &&
    imgNat img 12 4 ≤ 65536 && imgNat img 24 8 % 8 = 0 && imgNat img 32 8 % 8 = 0 && imgNat img 40 8 % 8 = 0 && imgNat img 48 8 % 8 = 0 &&
    imgNat img 56 8 % 8 = 0 && (imgNat img 6 1 = 1 || imgNat img 56 8 = 0)

/-- Bytes of the whole image. -/
def imageLen (img : List Byte) : Nat :=
  (List.range (imgNat img 8 4)).foldl (fun m i =>
    let e := imgNat img 24 8 + 32 * i
    max m (imgNat img (e + 8) 8 + imgNat img (e + 16) 4)) (tableLen img)

def readSeg (img : List Byte) (lost : Nat → Nat → Bool) (i : Nat) : Option Seg :=
  let bad := lost (imgNat img (imgNat img 24 8 + 32 * i + 8) 8) (imgNat img (imgNat img 24 8 + 32 * i + 16) 4)
  let e := imgNat img 24 8 + 32 * i
  let fsize := imgNat img (e + 16) 4
  let msize := imgNat img (e + 20) 4
  if fsize ≤ msize && imgNat img (e + 24) 1 < 2 && imgNat img (e + 25) 7 = 0 && (imgNat img (e + 24) 1 = 1 || imgNat img e 8 % 4 = 0) then
    some { vaddr := imgNat img e 8, msize, text := imgNat img (e + 24) 1 = 0, bad
           data := if bad then [] else (img.drop (imgNat img (e + 8) 8)).take fsize ++ List.replicate (msize - fsize) 0 }
  else none

/-- The zero-terminated name at an offset of the string table. -/
def nameAt (img : List Byte) (o : Nat) : Option (List Byte) :=
  let t := ((img.drop (imgNat img 48 8)).take (imgNat img 20 4)).drop o
  let n := t.takeWhile (· ≠ 0)
  if 1 ≤ n.length && n.length ≤ 255 && n.length < t.length then some n else none

def readSym (img : List Byte) (i : Nat) : Option Sym :=
  let e := imgNat img 32 8 + 24 * i
  (nameAt img (imgNat img e 4)).map fun name =>
    { name, bind := imgNat img (e + 4) 1, stype := imgNat img (e + 5) 1, seg := imgNat img (e + 6) 2, value := imgNat img (e + 8) 8
      size := imgNat img (e + 16) 8 }

def readRel (img : List Byte) (i : Nat) : Option Rel :=
  let e := imgNat img 40 8 + 24 * i
  if imgNat img (e + 3) 1 = 0 then
    some { seg := imgNat img e 2, kind := imgNat img (e + 2) 1, sym := imgNat img (e + 4) 4, off := imgNat img (e + 8) 4
           hoff := imgNat img (e + 12) 4, a := sx (imgNat img (e + 16) 8 : Nat) 64 }
  else none

/-- Every element, or none when one is missing. -/
def allSome {α : Type} : List (Option α) → Option (List α)
  | [] => some []
  | none :: _ => none
  | some a :: r => (allSome r).map (a :: ·)

/-- Offsets of the bundle headers of a text segment; none when their WORDS fields do not step exactly to its end. A header
that R199 calls illegal steps like any other: it traps when it is reached. -/
def bundleOffsets (data : List Byte) : Nat → Nat → Option (List Nat)
  | _, 0 => none
  | o, f + 1 =>
    if o = data.length then some []
    else if data.length < o + 4 then none
    else
      let n := fld (imgNat data o 4) 0 4
      if n = 0 then none else (bundleOffsets data (o + 4 * n) f).map (o :: ·)

def Seg.headers (g : Seg) : Option (List Nat) := bundleOffsets g.data 0 (g.msize / 4 + 1)

/-- Whether a bundle of a text segment begins at an offset, as far as its bytes could be read. -/
def Seg.header (g : Seg) (o : Nat) : Bool := g.bad || (g.headers.getD []).contains o

/-- The words of a bundle after its header: whether each is an extension word (R198). -/
def wordKinds : List Nat → List Bool
  | [] => []
  | 2 :: cs => false :: wordKinds cs
  | 3 :: cs => false :: true :: wordKinds cs
  | _ :: cs => wordKinds cs

/-- Whether the word at an offset is a word of the bundle at `h`, and whether it is an extension word. -/
def Seg.wordAt (g : Seg) (h off : Nat) : Option Bool :=
  let w := imgNat g.data h 4
  if (off - h) % 4 = 0 && h < off && (off - h) / 4 < fld w 0 4 then
    (wordKinds ((List.range 8).map fun k => fld w (14 + 2 * k) 2))[(off - h) / 4 - 1]?
  else none

/-- Whether segments overlap. -/
def Seg.meets (a b : Seg) : Bool := a.vaddr < b.vaddr + b.msize && b.vaddr < a.vaddr + a.msize

def segsApart : List Seg → Bool
  | [] => true
  | a :: r => !(r.any a.meets) && segsApart r

/-- The rules of a symbol (R398): entry points and code labels name a bundle header of a text segment, a code label has
SIZE 0, a symbol lies within its segment. -/
def Sym.ok (y : Sym) (segs : List Seg) : Bool :=
  y.bind ≤ 3 && y.stype ≤ 2 && (y.stype ≠ 1 || y.size = 0) &&
    if y.bind = 3 then y.seg = 0xFFFF
    else match segs[y.seg]? with
      | none => false
      | some g => if y.stype = 2 then y.value + y.size ≤ g.msize else g.text && g.header y.value

/-- The bytes a relocation patches. -/
def Rel.width (r : Rel) : Nat := if r.kind = 1 then 8 else 4

/-- The rules of a relocation (R399): in text, HOFF is the header of the bundle that holds the patched word, a slot word
for kind 2 and an extension word for kinds 3 to 5; outside text only an 8-byte word is patched. -/
def Rel.ok (r : Rel) (segs : List Seg) (nsym : Nat) : Bool :=
  1 ≤ r.kind && r.kind ≤ 5 && r.sym < nsym &&
    match segs[r.seg]? with
    | none => false
    | some g => r.off + r.width ≤ g.msize &&
        if !g.text then r.kind = 1
        else g.header r.hoff && (g.bad ||
          match g.wordAt r.hoff r.off with
          | none => false
          | some ext => r.kind = 1 || ext = (3 ≤ r.kind : Bool))

/-- The object of an image whose header is right; none when R396 to R399 are broken. `lost` says which bytes could not be
read: rules on such bytes are not tested. -/
def objectOf (img : List Byte) (lost : Nat → Nat → Bool) : Option Object :=
  match allSome ((List.range (imgNat img 8 4)).map (readSeg img lost)), allSome ((List.range (imgNat img 12 4)).map (readSym img)),
      allSome ((List.range (imgNat img 16 4)).map (readRel img)) with
  | some segs, some syms, some rels =>
    if segsApart segs && (segs.all fun g => !g.text || g.bad || g.headers.isSome) && syms.all (·.ok segs) &&
        rels.all (·.ok segs syms.length) then
      some { kind := imgNat img 6 1, latset := imgNat img 7 1, segs, syms, rels, cert := (img.drop (imgNat img 56 8)).take 256 }
    else none
  | _, _, _ => none

/-! ## Linking (R400, R401) -/

def Object.addr (o : Object) (y : Sym) : Nat := ((o.segs[y.seg]?.map (·.vaddr)).getD 0 + y.value) % 2 ^ 64

/-- Whether a second definition of a name is rejected: only two weak ones of one size may meet. -/
def clash (g1 g2 : Bool) (s1 s2 : Nat) : Bool := g1 || g2 || s1 ≠ s2

/-- The definitions of an object that enter the table, or none when one is a duplicate. -/
def Object.defs (o : Object) (image : Nat) (t : List Symbol) : Option (List Symbol) :=
  (o.syms.filter fun y => y.bind = 1 || y.bind = 2).foldl (fun acc y =>
    match acc with
    | none => none
    | some l =>
      match (t ++ l).find? fun e => e.name = y.name with
      | some e => if clash e.global (y.bind = 1) e.size y.size then none else some l
      | none => some (l ++ [{ name := y.name, global := y.bind = 1, size := y.size, addr := o.addr y, obj := image }]))
    (some [])

/-- What a symbol resolves to, with the table entry of another object that it uses. -/
def Object.resolve (o : Object) (all : List Symbol) (image : Nat) (y : Sym) : Option (Nat × Option (List Byte)) :=
  if y.bind = 0 then some (o.addr y, none)
  else (all.find? fun e => e.name = y.name).map fun e => (e.addr, if e.obj = image then none else some e.name)

/-- The value a relocation writes, as the bytes it patches; none when it does not fit. -/
def Object.patch (o : Object) (r : Rel) (s : Nat) (old : List Byte) : Option (List Byte) :=
  let v : Int := (s : Int) + r.a
  let h : Int := ((o.segs[r.seg]?.map (·.vaddr)).getD 0 + r.hoff : Nat)
  let q := (v - h) / 4
  let fits (w : Nat) : Bool := (v - h) % 4 = 0 && -(2 ^ (w - 1)) ≤ q && q < 2 ^ (w - 1)
  match r.kind with
  | 1 => some (leBytes 8 (zx v 64))
  | 2 => if fits 20 then some (leBytes 4 (leNat old / 2 ^ 20 * 2 ^ 20 + zx q 20)) else none
  | 3 => if fits 32 then some (leBytes 4 (zx q 32)) else none
  | 4 => some (leBytes 4 (zx v 32))
  | _ => some (leBytes 4 (zx v 64 / 2 ^ 32))

/-- Segments with one relocation applied. -/
def patchSegs (segs : List Seg) (r : Rel) (bs : List Byte) : List Seg :=
  segs.zipIdx.map fun (g, i) =>
    if i = r.seg then { g with data := g.data.take r.off ++ bs ++ g.data.drop (r.off + bs.length) } else g

/-- What linking gives: the segments as they are written, the new table entries, the names used from the table; or the
failure, in the order of R400. -/
inductive Linked
  | ok (segs : List Seg) (defs : List Symbol) (uses : List (List Byte))
  | bad (st : Stat)

/-- Applies every relocation; none when a value does not fit. -/
def Object.relocate (o : Object) (addr : Nat → Nat) : List Rel → List Seg → Option (List Seg)
  | [], segs => some segs
  | r :: rs, segs =>
    let old := ((segs[r.seg]?.map (·.data)).getD []).drop r.off |>.take r.width
    match o.patch r (addr r.sym) old with
    | none => none
    | some bs => o.relocate addr rs (patchSegs segs r bs)

/-- Whether a symbol is referenced: it is an undefined reference, or a relocation names it. -/
def Object.refers (o : Object) (i : Nat) (y : Sym) : Bool := y.bind = 3 || o.rels.any fun r => r.sym = i

def Object.link (o : Object) (image : Nat) (t : List Symbol) : Linked :=
  match o.defs image t with
  | none => .bad .duplicate
  | some defs =>
    let res := o.syms.map (o.resolve (t ++ defs) image)
    if res.any (·.isNone) then .bad .unresolved
    else match o.relocate (fun i => ((res.getD i none).map (·.1)).getD 0) o.rels o.segs with
      | none => .bad .reloc
      | some segs => .ok segs defs ((res.zip o.syms).zipIdx.filterMap fun x =>
          if o.refers x.2 x.1.2 then x.1.1.bind (·.2) else none).eraseDups

/-! ## Certificates (R408) -/

def certKind (cert : List Byte) : Nat := imgNat cert 8 1

/-- The digest of an object's text and the one its certificate holds. -/
def Object.digestOk (o : Object) : Bool :=
  (o.cert.drop 16).take 48 = sha384 ((o.segs.filter (·.text)).flatMap (·.data))

/-- A certificate passes for an object: its fields, this package's IDREV, the text's digest, the signature over bytes 0 to
159 under one of the up to eight translation keys that the configuration image lists (R437). -/
def State.certOk (s : State) (o : Object) : Bool :=
  let c := o.cert
  c.length = 256 && imgNat c 0 4 = 0x5443594C && imgNat c 4 4 = Config.idrev % 2 ^ 32 && certKind c < 4 && imgNat c 9 7 = 0 &&
    imgNat c 112 48 = 0 && o.digestOk &&
    ((Config.transKeys s.mgmt.image).take 8).any fun k => ecdsaOk k (c.take 160) (c.drop 160)

/-! ## Commands 0x24 to 0x26 -/

/-- The image address and the ASID of an operand word. -/
def objAddr (c : Cmd) : Nat := fld c.op0 0 56
def objAsid (c : Cmd) : Nat := fld c.op0 56 6

def loadAcc (c : Cmd) (kind : AccKind) : Acc := distAcc 0 (objAsid c) kind

/-- Whether bytes of an image that has been read are missing, declined or poisoned. -/
def lostIn (img : List (Byte × Bool)) (off n : Nat) : Bool :=
  img.length < off + n || gotPoison ((img.drop off).take n)

/-- Reads the image: its header, its tables, its segments. A header or a table that cannot be read is "declined"; whether
segment bytes can is looked at when their turn comes (R196: the first status that applies). -/
def State.withImage (s : State) (c : Cmd) (code : Nat) (go : List (Byte × Bool) → State → Option State) : Option State :=
  let a := loadAcc c .load
  let fails (s : State) (st : Stat) : Option State := some ((s.forgetLoads 0).ends c code st)
  let rd (s : State) (n : Nat) (k : List (Byte × Bool) → State → Option State) : Option State :=
    match s.readNow a (objAddr c) n with
    | .blocked s1 => if s.owes a.agent (readTag a (objAddr c) n) then none else some s1
    | .ready bs => k bs s
  rd s 64 fun h s =>
    if gotPoison h then fails s .declined
    else if !headerOk (h.map (·.1)) then fails s .format
    else if 2 ^ 47 ≤ tableLen (h.map (·.1)) then fails s .declined
    else rd s (tableLen (h.map (·.1))) fun t s =>
      if gotPoison t then fails s .declined
      else
        let n := imageLen (t.map (·.1))
        if 2 ^ 47 ≤ n then go t s else rd s n go

/-- Whether every text segment lies on pages with X = 1, as far as they are mapped. -/
def State.textPages (s : State) (asid : Nat) (segs : List Seg) : Bool :=
  segs.all fun g => !g.text || (cuts g.vaddr g.msize).all fun p =>
    match s.walk asid p.1 with
    | some (.leaf _ e) => entX e
    | _ => true

/-- Linking an object, with the failures of R400 up to "declined" in their order. -/
def State.linked (s : State) (c : Cmd) (code : Nat) (o : Object) : Linked :=
  if o.latset ≠ 1 then .bad .latency
  else match o.link (objAddr c) (s.symbols.get (objAsid c) []) with
    | .bad st => .bad st
    | .ok segs defs uses =>
      if code = 0x26 && !(o.segs.any fun g => g.text && g.bad) && !s.certOk o then .bad .certificate
      else if o.segs.any Seg.bad then .bad .declined
      else .ok segs defs uses

/-- The end of a load whose segments are written (R400 steps 6 and 7); none while they are not. -/
def State.linkEnd (s : State) (c : Cmd) (code : Nat) (l : Linking) : Option State :=
  match s.result? (.dist 0) 3 with
  | none => none
  | some _ =>
    let s1 := (s.dropResult (.dist 0) 3).onPort c.port fun p => { p with linking := none }
    let obj : Loaded := { image := l.image, asid := l.asid, uses := l.uses }
    let s2 : State := { s1 with symbols := s1.symbols.set l.asid (s1.symbols.get l.asid [] ++ l.defs)
                                objects := s1.objects ++ [obj] }
    some (s2.ends c code .done)

/-- Links an object and writes it (R400 steps 2 to 7). A store that writes nothing finds first whether any part of a
segment is declined: a failure leaves memory as it was. -/
def State.linkObject (s : State) (c : Cmd) (code : Nat) (o : Object) : Option State :=
  let asid := objAsid c
  let fails (s : State) (st : Stat) : Option State := some ((s.forgetLoads 0).ends c code st)
  if !s.textPages asid o.segs then fails s .format
  else match s.linked c code o with
    | .bad st => fails s st
    | .ok segs defs uses =>
      let a := loadAcc c .store
      match s.ask a 1 [] 0 0 (segs.map fun g => .read g.vaddr g.data.length) none with
      | .still => none
      | .went s1 => some s1
      | .got p _ s1 =>
        if !p.declined.isEmpty then fails s1 .declined
        else if 65536 < (s1.symbols.get asid []).length + defs.length then fails s1 .full
        else
          let s2 := (s1.forgetLoads 0).submit (a.req s1.nextId 3 [] 0 0 (segs.map fun g => .raw g.vaddr g.data false) none)
          let l : Linking := { asid, image := objAddr c, defs, uses }
          let s3 := s2.onPort c.port fun p => { p with linking := some l }
          some ((s3.linkEnd c code l).getD s3)

/-- Whether the other port's load, unload or install is under way or came before this one's (R402). -/
def State.loading (s : State) (port : Nat) : Bool :=
  match (s.port (1 - port)).running with
  | some (n, _) => n = 0x24 || n = 0x26 || 0x100 ≤ n
  | none => false

/-- Whether the other port's command keeps a waiting one waiting: it runs, or waits and came first. -/
def State.loadAhead (s : State) (port : Nat) : Bool :=
  match (s.port (1 - port)).running with
  | some (n, _) => n = 0x24 || n = 0x26 || (0x100 ≤ n && (s.port (1 - port)).waitNo < (s.port port).waitNo)
  | none => false

/-- Loads and unloads run one at a time in the order they came: a later one waits, its code marked by 0x100, until those
before it are done. -/
def State.beginLoad (s : State) (c : Cmd) (code : Nat) (go : State → Option State) : State :=
  if s.loading c.port then
    ({ s with nextId := s.nextId + 1 } : State).onPort c.port fun p => { p with running := some (code + 0x100, c), waitNo := s.nextId }
  else (go s).getD s

/-- A load that has waited begins. -/
def State.beginNext (s : State) (c : Cmd) (code : Nat) (go : State → Option State) : Option State :=
  if s.loadAhead c.port then none
  else
    let s1 := s.onPort c.port fun p => { p with running := some (code, c) }
    some ((go s1).getD s1)

/-- Command 0x24 from its image on, or from the write of its segments. -/
def State.loadNow (s : State) (c : Cmd) : Option State :=
  match (s.port c.port).linking with
  | some l => s.linkEnd c 0x24 l
  | none => s.withImage c 0x24 fun img s =>
    let bs := img.map (·.1)
    let fails (st : Stat) : Option State := some ((s.forgetLoads 0).ends c 0x24 st)
    if imgNat bs 6 1 ≠ 0 then fails .format
    else match objectOf bs (lostIn img) with
      | none => fails .format
      | some o => s.linkObject c 0x24 o

def State.loadObject (s : State) (c : Cmd) : State :=
  s.startCmd c 0x24 false (onlyOp0 c && below c.op0 62) fun s => s.beginLoad c 0x24 fun s => s.loadNow c

def execLoadObject (c : Cmd) (s : State) : Out := .next (s.loadObject c)

/-- Command 0x25 (R403). -/
def State.unloadNow (s : State) (c : Cmd) : State :=
  let asid := objAsid c
  let image := objAddr c
  let t := s.symbols.get asid []
  let mine := (t.filter fun e => e.obj = image).map (·.name)
  if !(s.objects.any fun o => o.image = image && o.asid = asid) then s.ends c 0x25 .unknown
  else if s.objects.any fun o => o.asid = asid && o.image ≠ image && o.uses.any mine.contains then s.ends c 0x25 .inUse
  else
    { s with symbols := s.symbols.set asid (t.filter fun e => e.obj ≠ image)
             objects := s.objects.filter fun o => ¬ (o.image = image ∧ o.asid = asid) }.ends c 0x25 .done

def State.unloadObject (s : State) (c : Cmd) : State :=
  s.startCmd c 0x25 false (onlyOp0 c && below c.op0 62) fun s => s.beginLoad c 0x25 fun s => some (s.unloadNow c)

def execUnloadObject (c : Cmd) (s : State) : Out := .next (s.unloadObject c)

/-- Segments of a resident image placed in a store of `size` bytes at key `k`: each at its VADDR. -/
def State.placeImage (s : State) (k size : Nat) (segs : List (Nat × List Byte)) : State :=
  segs.foldl (fun s g => if g.1 + g.2.length ≤ size then s.poke (k + g.1) g.2 else s)
    { s with mem := Memory.clear s.mem k size }

/-- RKIND 1: the image goes into every loader and storer instruction store (R409). -/
def State.placeHelpers (s : State) (segs : List (Nat × List Byte)) : State :=
  (List.range 1280).foldl (fun s i => s.placeImage (istoreKey (i / 2) (i % 2) 0) (2 ^ 15) segs) s

/-- A resident image of RKIND 0 to 2 takes its place (R409). -/
def State.placeResident (s : State) (rk : Nat) (r : Resident) : State :=
  match rk with
  | 0 => { s with mgmt := { s.mgmt with stagedFw := some r } }
  | 1 => { s.placeHelpers r.segs with mgmt := { s.mgmt with helperLib := r.image } }
  | _ => { s with mgmt := { s.mgmt with nextPats := some r } }

/-- Command 0x26 from its image on (R409): an image of RKIND 3 is linked into its address space; the others are linked as
R400 gives, with every failure of it but those of segments in pages, and enter no table. -/
def State.installNow (s : State) (c : Cmd) : Option State :=
  match (s.port c.port).linking with
  | some l => s.linkEnd c 0x26 l
  | none => s.withImage c 0x26 fun img s =>
    let bs := img.map (·.1)
    let s1 := s.forgetLoads 0
    let fails (st : Stat) : Option State := some (s1.ends c 0x26 st)
    if imgNat bs 6 1 ≠ 1 then fails .format
    else match objectOf bs (lostIn img) with
      | none => fails .format
      | some o =>
        let rk := certKind o.cert
        if rk = 3 then s.linkObject c 0x26 o
        else match s.linked c 0x26 o with
          | .bad st => fails st
          | .ok segs defs _ =>
            if 65536 < (s.symbols.get (objAsid c) []).length + defs.length then fails .full
            else if rk = 1 && s.ck.phase ≠ 2 then fails .busy
            else some ((s1.placeResident rk { image := bs, segs := segs.map fun g => (g.vaddr, g.data) }).ends c 0x26 .done)

def State.install (s : State) (c : Cmd) : State :=
  s.startCmd c 0x26 false (onlyOp0 c && below c.op0 62) fun s => s.withLamp c 0x26 fun s =>
    s.beginLoad c 0x26 fun s => s.installNow c

def execInstallResidentImage (c : Cmd) (s : State) : Out := .next (s.install c)

end Sys2Proof.Machine
end

