-- ==== Sys2Proof/Machine/Check.lean ====
section
/-! DEFINITION. Scan rotation (R64, R361-R366), checkpoints (R367-R375), standby packages (R377). -/

namespace Sys2Proof.Machine

/-! ## Scan rotation -/

/-- The map of package cluster `cl` (0-159) and its scan records. -/
def State.lpmap (s : State) (cl : Nat) : LpMap := (s.die (cl / 5)).lp.get (cl % 5) {}
def State.onLp (s : State) (cl : Nat) (f : LpMap → LpMap) : State :=
  s.onDie (cl / 5) fun d => { d with lp := d.lp.set (cl % 5) (f (d.lp.get (cl % 5) {})) }
def State.scanOf (s : State) (cl p : Nat) : Scan := (s.die (cl / 5)).scan.get (5 * (cl % 5) + p) {}
def State.onScan (s : State) (cl p : Nat) (f : Scan → Scan) : State :=
  s.onDie (cl / 5) fun d => { d with scan := d.scan.set (5 * (cl % 5) + p) (f (d.scan.get (5 * (cl % 5) + p) {})) }

/-- The global number of logical core `k` of a cluster. -/
def coreOf (cl k : Nat) : Nat := 4 * cl + k

/-- The serving physical core with the lowest PASS, the lowest number on a tie, with the logical core it serves. -/
def State.nextScan (s : State) (cl : Nat) : Option (Nat × Nat) :=
  let m := s.lpmap cl
  let l := (List.range 5).filterMap fun p =>
    if bit m.retmask p then none else (m.l.findIdx? (· = p)).map fun k => (p, k)
  l.foldl (fun b x =>
    match b with
    | none => some x
    | some y => if (s.scanOf cl x.1).pass < (s.scanOf cl y.1).pass then some x else b) none

/-- ROTATION_STEP: chooses the core and withholds binds to its logical core (R363); a reduced cluster asks for the logical
core to be taken offline, and binds that come before that still arrive (R365). -/
def State.rotate (s : State) (cl : Nat) : State :=
  if (s.lpmap cl).step.isSome then s
  else match s.nextScan cl with
    | none => s
    | some (p, k) =>
      let pats := { s.mgmt with scanPats := s.mgmt.nextPats.getD s.mgmt.scanPats, nextPats := none }
      let s1 := { s with mgmt := pats }.onLp cl fun m => { m with step := some (p, k), taken := false }
      if (s.lpmap cl).reduced then
        { s1 with mapPend := s1.mapPend ++ [s1.newestMap ||| (1#640 <<< coreOf cl k)] }
      else s1.onCore (coreOf cl k) fun q => { q with withheld := true }

def execRotationStep (cl : Nat) (s : State) : Out := .next (s.rotate cl)

/-- Whether a physical core may leave service (R64). -/
def Core.drained (k : Core) : Bool :=
  k.allIdle && k.runq.isEmpty && !k.loader.running && !k.storer.running && k.loader.starts.isEmpty &&
    k.storer.starts.isEmpty && k.mx.isEmpty &&
    ([k.mxT, k.grid] ++ (k.ch.map (·.2)) ++ (k.wp.map (·.2))).all fun t => t.done = t.issued

/-- What does not move with a logical core (R64). -/
def Core.moved (k : Core) : Core := { k with acc := [], spills := [], bufs := [], moving := true }

/-- Whether a cluster's core can start its move; in a reduced cluster, its scan, once the die has applied a map that takes
it offline (R64, R365). -/
def State.moveReady (s : State) (cl : Nat) : Bool :=
  match (s.lpmap cl).step with
  | none => false
  | some (p, k) =>
    let c := coreOf cl k
    (s.core c).drained && !(s.core c).moving && !(s.scanOf cl p).scanning &&
      if (s.lpmap cl).reduced then (s.lpmap cl).taken else (s.lpmap cl).l.getD k 0 = p

/-- RELIEF_MOVE: an emptied core's logical core starts to move to the relief core; in a reduced cluster its scan begins
(R64, R363, R365). -/
def State.reliefMove (s : State) (cl : Nat) : State :=
  match (s.lpmap cl).step with
  | none => s
  | some (p, k) =>
    if !s.moveReady cl then s
    else if (s.lpmap cl).reduced then s.onScan cl p fun r => { r with scanning := true }
    else s.onCore (coreOf cl k) Core.moved

def execReliefMove (cl : Nat) (s : State) : Out := .next (s.reliefMove cl)

/-- Accesses held while a scratchpad moved keep the order in which they came, in which they stand in the net (R64). -/
def State.keepPlaces (s : State) : State := { s with net := s.net.map fun r => { r with cyc := 0 } }

/-- RELIEF_COPY_DONE: LPMAP names the relief core, held accesses and binds are released, the scan begins. While it runs
the cluster has no relief core. -/
def State.reliefDone (s : State) (cl : Nat) : State :=
  match (s.lpmap cl).step with
  | none => s
  | some (p, k) =>
    if !(s.core (coreOf cl k)).moving then s
    else
      ((s.onLp cl fun m => { m with l := m.l.set k m.relief, relief := 7 }).onCore (coreOf cl k) fun q =>
        { q with moving := false, withheld := false }).keepPlaces.onScan cl p fun r => { r with scanning := true }

def execReliefCopyDone (cl : Nat) (s : State) : Out := .next (s.reliefDone cl)

/-- READY (R372). -/
def State.readyNow (s : State) : Bool :=
  s.ck.pending ≠ 0 && !s.ck.retireSince && (List.range 160).all fun cl => (List.range 5).all fun p =>
    let r := s.scanOf cl p
    r.retired || !r.dirty || s.ck.pending < r.dirtywin

/-- Evaluates READY again; when it becomes 1 the package posts TYPE 10 (R372, R375). -/
def State.reready (s : State) : State :=
  if s.ck.ready || !s.readyNow then s
  else ({ s with ck := { s.ck with ready := true } }.postBoth 10 0 0
    [BitVec.ofNat 64 (s.ck.pending + s.ck.pslot * 2 ^ 32), BitVec.ofNat 64 (s.ck.committed + s.ck.cslot * 2 ^ 32)])

/-- SCAN_PASS (R363, R365). -/
def State.scanPass (s : State) (cl : Nat) : State :=
  match (s.lpmap cl).step with
  | none => s
  | some (p, k) =>
    if !(s.scanOf cl p).scanning then s
    else
      let s1 := s.onScan cl p fun r => { r with pass := min (r.pass + 1) (2 ^ 24 - 1), dirty := false, scanning := false }
      let s2 :=
        if (s.lpmap cl).reduced then
          (({ s1 with mapPend := s1.mapPend ++ [s1.newestMap &&& ~~~(1#640 <<< coreOf cl k)] } : State).onLp cl fun m =>
            { m with step := none, taken := false }).onCore (coreOf cl k) fun q => { q with withheld := false }
        else s1.onLp cl fun m => { m with relief := p, step := none }
      s2.reready

def execScanPass (cl : Nat) (s : State) : Out := .next (s.scanPass cl)

/-- A physical core is retired (R366); of a reduced cluster, binds to the logical core it served stay withheld. -/
def State.retireCore (s : State) (cl p : Nat) : State :=
  (s.onScan cl p fun r => { r with retired := true, scanning := false }).onLp cl fun m =>
    { m with retmask := m.retmask ||| 2 ^ p, relief := 7, reduced := true, step := none, taken := false }

/-- SCAN_FAIL (R366, R375). -/
def State.scanFail (s : State) (cl : Nat) : State :=
  match (s.lpmap cl).step with
  | none => s
  | some (p, k) =>
    if !(s.scanOf cl p).scanning then s
    else
      let s1 := s.retireCore cl p
      ({ s1 with ck := { s1.ck with rbreq := true, retireSince := true, ready := false } }.postBoth 11 (cl / 5) 0
        [BitVec.ofNat 64 (cl % 5 + p * 8 + k * 2 ^ 8), BitVec.ofNat 64 (s.ck.pending + s.ck.cur * 2 ^ 32),
         BitVec.ofNat 64 (s.scanOf cl p).pass])

def execScanFail (cl : Nat) (s : State) : Out := .next (s.scanFail cl)

/-! ## Slots of the safe tier (R87) -/

def gib : Nat := 2 ^ 30
/-- The key of slot `t` of the safe tier. -/
def State.slotKey (s : State) (t : Nat) : Nat := secondBase + Config.safeBase s.mgmt.image + t * (1760 * gib)
/-- Where the image of a slot holds a byte of device memory. -/
def imageKey (slot k : Nat) : Nat := slot + k / 2 ^ 36 * (48 * gib) + k % 2 ^ 36
/-- Whether a key is a byte of device memory (R18). -/
def deviceByte (k : Nat) : Bool := k < 2 ^ 41 && k % 2 ^ 36 < 48 * gib

/-- Writes cells one by one. -/
def Memory.setAll (m : List Host.Cell) (l : List (Nat × Byte)) : List Host.Cell := l.foldl (fun m c => Memory.set m c.1 c.2) m

/-- The cells of device memory, and those of a slot's image, by physical address. -/
def State.deviceCells (s : State) : List (Nat × Byte) := s.mem.filter fun c => deviceByte c.1
def State.imageCells (s : State) (slot : Nat) : List (Nat × Byte) :=
  s.mem.filterMap fun c =>
    if slot ≤ c.1 && c.1 < slot + 1536 * gib then
      some ((c.1 - slot) / (48 * gib) * 2 ^ 36 + (c.1 - slot) % (48 * gib), c.2)
    else none

/-- Poisoned lines of device memory, and those of a slot's image, by physical address. -/
def State.devicePoison (s : State) : List Nat := s.poison.filter fun l => deviceByte (64 * l)
def State.imagePoison (s : State) (slot : Nat) : List Nat :=
  s.poison.filterMap fun l =>
    if slot ≤ 64 * l && 64 * l < slot + 1536 * gib then
      some (((64 * l - slot) / (48 * gib) * 2 ^ 36 + (64 * l - slot) % (48 * gib)) / 64)
    else none

/-! ## Parity (R88) -/

/-- XORs cells into memory one by one. -/
def Memory.xorAll (m : List Host.Cell) (l : List (Nat × Byte)) : List Host.Cell :=
  l.foldl (fun m c => Memory.set m c.1 (Memory.get m c.1 ^^^ c.2)) m

/-- The block of image unit `u` of member `m`, and the member that holds its parity. -/
def parityPlace (m u : Nat) : Nat × Nat := (u / 7, if u % 7 < m then u % 7 else u % 7 + 1)

/-- The image unit of member `m` whose parity member `k` holds in block `b`. -/
def parityUnit (m b k : Nat) : Nat := 7 * b + if k < m then k else k - 1

/-- What the other members' images put into the parity area of member `k`: cells by offset in it, to be XORed. -/
def parityCells (k : Nat) (image : Nat → List (Nat × Byte)) : List (Nat × Byte) :=
  ((List.range 8).filter (· ≠ k)).flatMap fun m => (image m).filterMap fun c =>
    let p := parityPlace m (c.1 / 2 ^ 16)
    if c.1 < 1536 * gib && p.2 = k then some (p.1 * 2 ^ 16 + c.1 % 2 ^ 16, c.2) else none

/-- The image of member `m` from the parity units and the images of the others: cells by offset in it, to be XORed. -/
def rebuiltCells (m : Nat) (image parity : Nat → List (Nat × Byte)) : List (Nat × Byte) :=
  ((List.range 8).filter (· ≠ m)).flatMap fun j =>
    let cell (b k x : Nat) (v : Byte) : Option (Nat × Byte) :=
      let u := parityUnit m b k
      if k ≠ m && u < 24 * 2 ^ 20 then some (u * 2 ^ 16 + x % 2 ^ 16, v) else none
    ((parity j).filterMap fun c => cell (c.1 / 2 ^ 16) j c.1 c.2) ++
      (image j).filterMap fun c =>
        let p := parityPlace j (c.1 / 2 ^ 16)
        if c.1 < 1536 * gib then cell p.1 p.2 c.1 c.2 else none

/-- Cells of the second tier that a port which is down does not take (R79). -/
def State.upCells (s : State) (l : List (Nat × Byte)) : List (Nat × Byte) :=
  if s.cxlDown.isEmpty then l else l.filter fun c => !s.cxlDown.contains (secondPlace (c.1 - secondBase)).1

/-- Memory without a range of the second tier, but for what lies on a port that is down: a write there is declined (R79). -/
def State.clearUp (s : State) (m : List Host.Cell) (k n : Nat) : List Host.Cell :=
  m.filter fun c => c.1 < k ∨ k + n ≤ c.1 ∨ s.cxlDown.contains (secondPlace (c.1 - secondBase)).1

/-- The parity units of this package's rank in a slot, anew. -/
def State.writeParity (s : State) (slot : Nat) : State :=
  let l := (parityCells s.fabric.rank (Config.memberImage s.fresh)).map fun c => (slot + 1536 * gib + c.1, c.2)
  { s with mem := Memory.xorAll (s.clearUp s.mem (slot + 1536 * gib) (224 * gib - 2 ^ 16)) (s.upCells l), fresh := s.fresh + 1 }

/-! ## Checkpoints (R368-R375) -/

/-- Command 0x19 (R369). -/
def State.quiesce (s : State) (c : Cmd) : State :=
  s.startCmd c 0x19 false (noOps c) fun s =>
    if s.ck.phase ≠ 0 then s.ends c 0x19 .notRunning
    else if s.ck.disabled then s.ends c 0x19 .disabled
    else { s with ck := { s.ck with phase := 1 } }.ends c 0x19 .done

def execQuiesce (c : Cmd) (s : State) : Out := .next (s.quiesce c)

/-- Whether a core holds no work and its engines are done. -/
def Core.quiet (k : Core) : Bool :=
  !(k.ctxs.any fun p => p.2.busy) && k.runq.isEmpty && k.mx.isEmpty &&
    ([k.mxT, k.grid] ++ (k.ch.map (·.2)) ++ (k.wp.map (·.2))).all fun t => t.done = t.issued

/-- Whether a die's firmware owes nothing for any node. -/
def Die.quiet (d : Die) : Bool :=
  d.todo.isEmpty && !((d.evWait ++ d.untaken).any fun r => r.kind = 1)

/-- Whether the package is quiet (R369). -/
def State.quietNow (s : State) : Bool :=
  s.ck.phase = 1 && !s.ck.restoring && (s.cores.all fun p => p.2.quiet) && s.spawns.isEmpty && s.parked.isEmpty &&
    s.coll.done = s.coll.issued && (List.range 32).all fun d => s.progressOf d = s.logSeq && (s.die d).quiet

/-- QUIESCE_REACHED. -/
def State.quiesced (s : State) : Option State :=
  if s.quietNow then
    some ({ s with ck := { s.ck with phase := 2 } }.postBoth 9 0 0
      [BitVec.ofNat 64 s.ck.cur, BitVec.ofNat 64 s.logSeq, BitVec.ofNat 64 s.ck.committed])
  else none

def execQuiesceReached (s : State) : Out := .next (s.quiesced.getD s)

/-- The slot a capture writes (R370). -/
def Check.target (k : Check) : Nat := if k.committed = 0 then 0 else 1 - k.cslot

/-- The writes of a capture: image with its poison, parity, saved record. -/
def State.writeSlot (s : State) (t : Nat) : State :=
  let k := s.slotKey t
  let m := Memory.clear s.mem k (1760 * gib)
  let m := Memory.setAll m (s.deviceCells.map fun c => (imageKey k c.1, c.2))
  let m := Memory.setAll m (((Config.recordCells s.fresh).filter fun c => c.1 < 2 ^ 16).map fun c =>
    (k + 1760 * gib - 2 ^ 16 + c.1, c.2))
  let p := s.poison.filter fun l => 64 * l < k || k + 1760 * gib ≤ 64 * l
  ({ s with mem := m, poison := (s.devicePoison.map fun l => imageKey k (64 * l) / 64).foldl insSorted p } : State).writeParity k

/-- Command 0x1A: the writes of the capture; CAPTURE_DONE ends it. -/
def State.capture (s : State) (c : Cmd) : State :=
  s.startCmd c 0x1A false (noOps c) fun s =>
    if s.ck.phase ≠ 2 then s.ends c 0x1A .notQuiesced
    else if s.ck.pending ≠ 0 then s.ends c 0x1A .pending
    else
      let s1 := if s.cxlDown.isEmpty then s.writeSlot s.ck.target else s
      { s1 with ck := { s1.ck with phase := 3, retireSince := false, capFailed := s.cxlDown.head? } }

def execCapture (c : Cmd) (s : State) : Out := .next (s.capture c)

/-- What a capture saves beside the image. -/
def State.save (s : State) : Saved :=
  { gen := s.ck.cur, queues := s.queues, cursors := s.curs 0, counts := s.windows.map fun p => (p.1, p.2.count)
    log := s.logEntries, seq := s.logSeq }

/-- The commands that run under a code end with a status, port A's first. -/
def State.endsAll (s : State) (code : Nat) (st : Stat) : State :=
  [0, 1].foldl (fun s p =>
    match (s.port p).running with
    | some (n, c) => if n = code then s.ends c code st else s
    | none => s) s

def State.endRunning (s : State) (code : Nat) : State := s.endsAll code .done

/-- CAPTURE_DONE (R370). -/
def State.captured (s : State) : State :=
  if s.ck.phase ≠ 3 then s
  else
    let g := s.ck.cur
    let k : Check := { s.ck with phase := 0, cur := g + 1, capFailed := none }
    match s.ck.capFailed with
    | some p => ({ s with ck := k }.postBoth 12 0 0 [BitVec.ofNat 64 g, BitVec.ofNat 64 p]).endRunning 0x1A
    | none =>
      let t := s.ck.target
      ({ s with ck := { k with pending := g, pslot := t }, saved := s.saved.set t s.save }.reready).endRunning 0x1A

def execCaptureDone (s : State) : Out := .next s.captured

/-- Command 0x1B (R371). The maps of windows up to the committed one are no longer needed (R374). -/
def State.commit (s : State) (c : Cmd) : State :=
  s.startCmd c 0x1B false (noOps c) fun s =>
    if !s.ck.ready then s.ends c 0x1B .notReady
    else
      let g := s.ck.pending
      let ds : Tab Die := s.dies.map fun p =>
        (p.1, { p.2 with prov := p.2.prov.filter (g < ·.1), untracked := p.2.untracked.filter (g < ·) })
      { s with ck := { s.ck with committed := g, cslot := s.ck.pslot, pending := 0, ready := false }
               dies := ds }.ends c 0x1B .done

def execCommit (c : Cmd) (s : State) : Out := .next (s.commit c)

/-! ## Rollback (R373, R374) -/

/-- A timeline whose engine has been stopped: no command is left, and its counter stands at the last number issued. -/
def Timeline.halt (t : Timeline) : Timeline := { issued := t.issued, done := t.issued }

def Helper.halt (h : Helper) : Helper := { h with running := false, halted := false, owes := false, starts := [], sel := none, decl := false }

/-- A core after its tasks have failed: contexts idle, run queue empty, helpers and engines stopped, STAGE 0. -/
def Core.cleared (k : Core) : Core :=
  { k with ctxs := k.ctxs.map fun p => (p.1, ({} : Ctx)), runq := [], acc := [], spills := [], bufs := [], mx := []
           mxT := k.mxT.halt, ch := k.ch.map fun p => (p.1, p.2.halt), grid := k.grid.halt
           wp := k.wp.map fun p => (p.1, p.2.halt), stage := 0, loader := k.loader.halt, storer := k.storer.halt
           gate := .run, fogged := false }

/-- A die after a rollback: causal state and hold buffers (R143), end-to-end state (R382), what its firmware knew of
nodes; DIRTY of every core 0. -/
def Die.cleared (d : Die) : Die :=
  { d with sent := [], acked := [], applied := [], execd := [], send := [], repeats := [], todo := []
           evq := d.evq.filter (2 < ·.kind), evHeld := false, evWait := d.evWait.filter (2 < ·.kind)
           scan := d.scan.map fun p => (p.1, { p.2 with dirty := false }) }

/-- Deregistrations that waited for what a rollback drops end. -/
def State.closeAll (s : State) : State :=
  let s1 := s.windows.foldl (fun s w => s.closeWindow w.1) s
  s.groups.foldl (fun s g => (s.closeGroup g.1).getD s) s1

/-- Command 0x1C: selection stops and everything bound fails; ROLLBACK_RESTORE_DONE ends it. A capture under way ends with
it (log entry 51). -/
def State.rollback (s : State) (c : Cmd) : State :=
  s.startCmd c 0x1C false (noOps c) fun s =>
    if s.ck.committed = 0 then s.ends c 0x1C .none
    else
      ({ s.endsAll 0x1A .notQuiesced with
               cores := s.cores.map fun p => (p.1, p.2.cleared), dies := s.dies.map fun p => (p.1, p.2.cleared)
               coll := s.coll.halt, net := [], replies := [], acks := [], parked := [], puts := [], spawns := []
               results := [], focus := .none, before := none, mark := .clean
               fabric := { s.fabric with recv := [], out := [], wait := [], combine := [], parts := [] }
               ck := { s.ck with phase := 1, restoring := true, pending := 0, ready := false } } : State).closeAll

def execRollback (c : Cmd) (s : State) : Out := .next (s.rollback c)

/-- Whether a rollback restores a frame of a die (R374). -/
def State.restores (s : State) (k : Nat) : Bool :=
  let d := s.die (k / 2 ^ 36)
  d.untracked.any (s.ck.committed < ·) || d.prov.any fun m => s.ck.committed < m.1 && m.2 = k / 2 ^ 16

/-- Lines of device memory whose place in a slot's image is on a port that is down: its reads are declined (R79). -/
def State.lostLines (s : State) (slot : Nat) (pick : Nat → Bool) : List Nat :=
  if s.cxlDown.isEmpty then []
  else (List.range (24 * 2 ^ 20)).flatMap fun u =>
    let k := u / 786432 * 2 ^ 36 + u % 786432 * 2 ^ 16
    if s.cxlDown.contains (secondPlace (slot - secondBase + u * 2 ^ 16)).1 && pick k then
      (List.range 1024).map (k / 64 + ·) else []

/-- Device memory, and its poison, from a slot's image, where `pick` holds; the ring is 0 (R70). -/
def State.restoreMem (s : State) (slot : Nat) (pick : Nat → Bool) : State :=
  let m := s.mem.filter fun c => ¬ (deviceByte c.1 ∧ pick c.1) ∧ ¬ (ringBase ≤ c.1 ∧ c.1 < ringBase + 2 ^ 31)
  let p := s.poison.filter fun l =>
    ¬ (deviceByte (64 * l) ∧ pick (64 * l)) ∧ ¬ (ringBase ≤ 64 * l ∧ 64 * l < ringBase + 2 ^ 31)
  let lost := s.lostLines slot pick
  { s with mem := Memory.setAll m ((s.imageCells slot).filter fun c => pick c.1 && !lost.contains (c.1 / 64))
           poison := (((s.imagePoison slot).filter fun l => pick (64 * l)) ++ lost).foldl insSorted p }

/-- A queue of a saved record; a suspend or destroy that waits now goes on waiting. -/
def Queue.restore (q now : Queue) : Queue :=
  { q with stale := false, dying := now.dying, saves := now.saves, saved := now.saved }

/-- A window's COUNT from a saved record; poison reported for later puts goes with them (R82). -/
def Window.restore (w : Window) (count : Nat) : Window := { w with count, bad := w.bad.filter (· ≤ count) }

/-- The firmware's memory from a saved record (R370, R373): the selection log, and on every die the progress word and the
cursors, with the offline map `off`. -/
def State.loadBlocks (s : State) (v : Saved) (off : BitVec 640) : State :=
  (List.range 32).foldl (fun s d =>
      ((s.poke (progressKey d) (leBytes 4 v.seq)).poke (copyKey d v.seq) { v.cursors with offline := off }.bytes).takeOffline d)
    (v.log.foldl (fun s e => s.poke (logEntryKey e.seq) e.bytes) { s with logSeq := v.seq })

/-- Queues, the cursors of R186, window COUNTs and the selection log from a saved record. The offline map that `now` had
stays, its maps that were not applied wait, and die 0 looks at every queue again. -/
def State.loadSaved (s : State) (v : Saved) (now : State) : State :=
  let s1 : State := { s with
    mapPend := now.mapsDue
    queues := v.queues.map fun p => (p.1, p.2.restore (s.queue p.1))
    windows := s.windows.map fun p => (p.1, p.2.restore ((v.counts.find? (·.1 = p.1)).elim p.2.count (·.2))) }
  s1.loadBlocks v (now.offlineOf 0)

/-- ROLLBACK_RESTORE_DONE (R373). -/
def State.restored (s : State) : State :=
  if !s.ck.restoring then s
  else
    let g := s.ck.committed
    let s1 := (s.restoreMem (s.slotKey s.ck.cslot) s.restores).loadSaved (s.saved.get s.ck.cslot {}) s
    ({ s1 with
       barriers := []
       dies := s1.dies.map fun p => (p.1, { p.2 with prov := p.2.prov.filter (·.1 ≤ g), untracked := p.2.untracked.filter (· ≤ g) })
       ck := { s1.ck with phase := 0, restoring := false, cur := g + 1, pending := 0, rbreq := false
                          ready := false, capFailed := none } } : State).endRunning 0x1C

def execRollbackRestoreDone (s : State) : Out := .next s.restored

/-! ## Standby packages (R377) -/

/-- Command 0x1D: the new coordinates and rank hold from the next daymark change on, which ends the command (log entry
52). -/
def State.assumeIdentity (s : State) (c : Cmd) : State :=
  s.startCmd c 0x1D false (onlyOp0 c && below c.op0 21) fun s =>
    if !s.ck.standby then s.ends c 0x1D .notStandby
    else { s with fabric := { s.fabric with identity := some (fld c.op0 0 18, fld c.op0 18 3) } }

/-- The identity that waits for a daymark change is assumed. -/
def State.takeIdentity (s : State) : State :=
  match s.fabric.identity with
  | none => s
  | some (p, m) => { s with fabric := { s.fabric with coords := p, rank := m, identity := none } }.endRunning 0x1D

def execAssumeIdentity (c : Cmd) (s : State) : Out := .next (s.assumeIdentity c)

/-- Command 0x1E; REBUILD_DONE ends it. -/
def State.rebuild (s : State) (c : Cmd) : State :=
  s.startCmd c 0x1E false (noOps c) fun s =>
    if !s.ck.standby then s.ends c 0x1E .notStandby else { s with ck := { s.ck with rebuilding := true } }

def execRebuild (c : Cmd) (s : State) : Out := .next (s.rebuild c)

/-- REBUILD_DONE: the image that parity and the survivors' images give (R88) reaches device memory and the slot CSLOT, and
the saved record is loaded. -/
def State.rebuilt (s : State) : State :=
  if !s.ck.rebuilding then s
  else
    let k := s.slotKey s.ck.cslot
    let img := rebuiltCells s.fabric.rank (Config.memberImage s.fresh) (Config.memberParity s.fresh)
    let v := Config.rebuiltSaved s.fresh
    let m := s.clearUp (s.mem.filter fun c => !deviceByte c.1) k (1536 * gib)
    let m := Memory.xorAll m (img.map fun c => (c.1 / (48 * gib) * 2 ^ 36 + c.1 % (48 * gib), c.2))
    let s1 : State := { s with
      mem := Memory.xorAll m (s.upCells (img.map fun c => (k + c.1, c.2))), fresh := s.fresh + 1
      poison := s.poison.filter fun l => ¬ deviceByte (64 * l) ∧
        (64 * l < k ∨ k + 1536 * gib ≤ 64 * l ∨ s.cxlDown.contains (secondPlace (64 * l - secondBase)).1)
      saved := s.saved.set s.ck.cslot v }
    ({ s1.loadSaved v s with
       ck := { s.ck with rebuilding := false, parityDue := true, committed := v.gen, cur := v.gen + 1, pending := 0 } } :
      State).endRunning 0x1E

def execRebuildDone (s : State) : Out := .next s.rebuilt

/-- PARITY_RECOMPUTED: the parity units of this rank are whole again. -/
def State.parityAgain (s : State) : State :=
  if !s.ck.parityDue then s
  else { s with ck := { s.ck with parityDue := false } }.writeParity (s.slotKey s.ck.cslot)

def execParityRecomputed (s : State) : Out := .next s.parityAgain

end Sys2Proof.Machine
end

