-- ==== Sys2Proof/Machine/Manage.lean ====
section
/-! DEFINITION. Reset and boot (R436-R438), measurement (R439, R440), supply, throttling and the thermal trip (R441-R443),
gating and fog reports (R357, R359), memory and port events (R73, R79, R395). -/

namespace Sys2Proof.Machine

/-! ## Reset (R436) -/

/-- Keys whose bytes a reset leaves: the second tier (R78), instruction stores, instruction memories, journals, and host
memory, which is outside. -/
def keptKey (k : Nat) : Bool := (secondBase ≤ k && k < ringBase) || (2 ^ 54 ≤ k && k < 2 ^ 55) || 2 ^ 56 ≤ k

/-- Inputs that this package has queued for itself; a reset drops them. -/
def Input.inner : Input → Bool
  | .event (.putAckArrival _ _ _ _) => true
  | .event (.hactUnwind _ _) => true
  | .event (.lossCountDue _ _) => true
  | .event (.windowPutArrival _) => true
  | .event (.windowGetArrival _) => true
  | _ => false

/-- The package in reset: what has a reset value holds it; stored images, links of the host and the supply stay. -/
def State.afterReset (s : State) : State :=
  { State.reset with
    mem := s.mem.filter fun c => keptKey c.1
    poison := s.poison.filter fun l => secondBase ≤ 64 * l && 64 * l < ringBase
    ports := [0, 1].map fun p => (p, ({ linkLost := (s.port p).linkLost, gone := (s.port p).gone } : Port))
    agenda := s.agenda.filter fun i => !i.inner
    fresh := s.fresh
    mgmt := { supply := s.mgmt.supply, image := s.mgmt.image, nextImage := s.mgmt.nextImage, stagedFw := s.mgmt.stagedFw
              seenImage := s.mgmt.seenImage, seenFw := s.mgmt.seenFw, fw := s.mgmt.fw, helperLib := s.mgmt.helperLib
              scanPats := s.mgmt.scanPats, nextPats := s.mgmt.nextPats } }

/-- Command 0x27 (R438). -/
def State.packageReset (s : State) (c : Cmd) : State :=
  s.startCmd c 0x27 false (noOps c) fun s => s.withLamp c 0x27 fun s => (s.ends c 0x27 .done).afterReset

def execPackageReset (c : Cmd) (s : State) : Out := .next (s.packageReset c)

/-- Whether a configuration image verifies: an ECDSA signature over P-384 with SHA-384, under a key whose certificate
chains to the root key (R437). -/
def imageOk (img : List Byte) : Bool :=
  Config.imageChains img && ecdsaOk (Config.imageKey img) (Config.imageSigned img) (Config.imageSig img)

/-- The stored configuration image: the last one accepted. -/
def Mgmt.stored (m : Mgmt) : List Byte := m.nextImage.getD m.image

/-- Command 0x28 (R437, R438). -/
def State.imageChange (s : State) (c : Cmd) : State :=
  s.startCmd c 0x28 false (c.op2 = 0 && c.op3 = 0) fun s => s.withLamp c 0x28 fun s =>
    if c.op0 % 64 ≠ 0 || c.op1 = 0 || 65536 < c.op1 then s.ends c 0x28 .range
    else
      let (n, s) := s.draw
      let img := s.bytes (hostKey c.op0) c.op1
      if Config.hostReadFails n then s.ends c 0x28 .declined
      else if !imageOk img || Config.imgver img < Config.imgver s.mgmt.stored then s.ends c 0x28 .image
      else { s with mgmt := { s.mgmt with nextImage := some img } }.ends c 0x28 .done

def execConfigurationImageChange (c : Cmd) (s : State) : Out := .next (s.imageChange c)

/-! ## Boot (R436) -/

/-- The check of the staged firmware: 4 its digest, 3 its certificate. -/
def State.firmwareError (s : State) (img : List Byte) : Option Nat :=
  match objectOf img fun _ _ => false with
  | none => some 3
  | some o => if !o.digestOk then some 4 else if certKind o.cert ≠ 0 || !s.certOk o then some 3 else none

/-- What stops boot: the phase and ERR (R436, R443). -/
def State.bootError (s : State) (img : List Byte) : Option (Nat × Nat) :=
  if !imageOk img then some (1, 1)
  else if Config.imgver img < Config.imgver s.mgmt.image then some (1, 2)
  else
    let s1 : State := { s with mgmt := { s.mgmt with image := img } }
    (s.mgmt.stagedFw.bind fun r => s1.firmwareError r.image).map fun e => (2, e)

/-- The staged firmware in all 64 instruction memories. -/
def State.loadFirmware (s : State) : State :=
  match s.mgmt.stagedFw with
  | none => s
  | some r =>
    let s1 := (List.range 64).foldl (fun s i => s.placeImage (imemKey (i / 2) (i % 2) 0) (2 ^ 18) r.segs) s
    { s1 with mgmt := { s1.mgmt with fw := r.image } }

/-- Physical cores of a cluster that fail the boot scan. -/
def bootFails (cl : Nat) : List Nat := (List.range 5).filter fun p => !Config.scanPasses (cl / 5) (5 * (cl % 5) + p)

/-- Logical cores that no core serves when those of `l` have failed: the relief core, where it passes, takes over the
first. -/
def unserved (l : List Nat) : List Nat :=
  let m := l.filter (· < 4)
  if l.contains 4 then m else m.drop 1

/-- The boot scan of a cluster (R362, R366): binds to a logical core that no core serves are withheld for good. -/
def State.bootScan (s : State) (cl : Nat) : State :=
  let bad := bootFails cl
  let s1 := (List.range 5).foldl (fun s p =>
    if bad.contains p then
      (s.retireCore cl p).postBoth 11 (cl / 5) 0
        [BitVec.ofNat 64 (cl % 5 + p * 8 + p % 4 * 2 ^ 8), BitVec.ofNat 64 (s.ck.cur * 2 ^ 32), 0]
    else s.onScan cl p fun r => { r with pass := 1 }) s
  let s2 := match bad.head? with
    | some p => if p < 4 && !bad.contains 4 then s1.onLp cl fun m => { m with l := m.l.set p 4 } else s1
    | none => s1
  (unserved bad).foldl (fun s k => s.onCore (coreOf cl k) fun q => { q with withheld := true }) s2

/-- The offline map that the boot scan leaves: the logical cores that no core serves. -/
def bootMap : BitVec 640 :=
  (List.range 160).foldl (fun m cl => (unserved (bootFails cl)).foldl (fun m k => m ||| (1#640 <<< coreOf cl k)) m) 0

/-- Every die starts with that map. -/
def State.mapAll (s : State) : State :=
  (List.range 32).foldl (fun s d => s.poke (copyKey d 0) ({ offline := bootMap } : Cursors).bytes) s

/-- A second-tier port goes offline until the next reset: an event on both control ports names it (R75, R79). -/
def State.portOff (s : State) (port : Nat) : State :=
  ({ s with cxlDown := s.cxlDown ++ [port] } : State).postBoth 6 0 0 [BitVec.ofNat 64 port]

/-- CXL enumeration: a port with a device that is not supported is held offline (R75); the second tier is disabled when
the capacity that another presents is not the image's, or is above 384 GiB (R77). -/
def State.bootCxl (s : State) (img : List Byte) : State :=
  let ports := List.range 16
  let s1 := (ports.filter fun p => !Config.portSupported p).foldl State.portOff s
  let off := 384 * gib < Config.portBytes img ||
    ports.any fun p => Config.portSupported p && Config.portPresents p ≠ Config.portBytes img
  { s1 with mgmt := { s1.mgmt with secondOff := off } }

/-- The coordinate of a package in dimension `d`. -/
def coordOf (pkg d : Nat) : Nat := fld pkg (6 * d) 6

/-- Packages along a dimension of the torus. -/
def State.extent (s : State) (d : Nat) : Nat := Config.extent s.mgmt.image d % 64 + 1

/-- The package beyond a face of package `pkg`: faces 0 to 5 are −x, +x, −y, +y, −z, +z. -/
def State.beyond (s : State) (pkg face : Nat) : Nat :=
  let d := face / 2
  let n := s.extent d
  let x := coordOf pkg d
  pkg - x * 2 ^ (6 * d) + (if face % 2 = 1 then (x + 1) % n else (x + n - 1) % n) * 2 ^ (6 * d)

/-- The package at a face. -/
def State.neighbour (s : State) (face : Nat) : Nat := s.beyond s.fabric.coords face

/-- Whether every fabric link of a face is dead. -/
def State.faceDead (s : State) (face : Nat) : Bool :=
  (List.range 16).all fun l => (s.fabric.links.get (16 * face + l) {}).dead || Config.isBridge s.mgmt.image face l

/-- TYPE 15: every link of a face is dead (R386). -/
def State.postFace (s : State) (face : Nat) : State :=
  s.postBoth 15 0 0 [BitVec.ofNat 64 face, BitVec.ofNat 64 (s.neighbour face)]

/-- Whether a face has links of the fabric. -/
def State.fabricFace (s : State) (face : Nat) : Bool := !(List.range 16).all (Config.isBridge s.mgmt.image face)

/-- Link training: a fabric link that does not train is dead (R379, R436); a face without a live link is reported (R386). -/
def State.bootLinks (s : State) : State :=
  let s1 := (List.range 96).foldl (fun s n =>
    if Config.linkTrains (n / 16) (n % 16) || Config.isBridge s.mgmt.image (n / 16) (n % 16) then s
    else { s with fabric := { s.fabric with links := s.fabric.links.set n { dead := true } } }) s
  (List.range 6).foldl (fun s f => if s.faceDead f && s.fabricFace f then s.postFace f else s) s1

/-- The code of a face of a package in the routing tables. -/
def faceCode (p : Nat × Nat) : Nat := p.1 * 8 + p.2

/-- The routing tables that a keeper computes for the surviving links (R385): the faces that have lost every link. -/
def routesOf (img : List Byte) (deaths : List (Nat × Nat × Nat)) : List Nat :=
  let faces := (deaths.map fun d => (d.1, d.2.1)).eraseDups
  (faces.filter fun f => Config.fabricLinks img f.1 f.2 < (deaths.eraseDups.filter fun d => (d.1, d.2.1) = f).length).map
    faceCode

/-- The daymark and the tables of the keeper are taken (R385, R436); a keeper has those of its own reset. -/
def State.takeTables (s : State) : State :=
  let (n, s1) := s.draw
  if s.fabric.keeperSelf then s
  else { s1 with fabric := { s1.fabric with daymark := Config.bootDaymark n % 256
                                            table := routesOf s.mgmt.image (Config.bootDeaths n) } }

/-- Whether the safe tier fits in the second tier (R87), and every port it needs is up (R79). -/
def State.safeFits (s : State) (img : List Byte) : Bool :=
  Config.safeBase img + 3520 * gib ≤ s.secondBytes && s.cxlDown.isEmpty

/-- Boot writes 0 with valid check codes to all of device memory (R74): what errors had poisoned is whole again. -/
def State.zeroDevice (s : State) : State :=
  { s with mem := s.mem.filter fun c => !deviceByte c.1
           poison := s.poison.filter fun l => !deviceByte (64 * l)
           dies := s.dies.map fun p => (p.1, { p.2 with badRows := [], rowFaults := [] }) }

/-- What boot measures before it uses it (R439): the image at step 1, the firmware at step 2. -/
def State.bootMeasure (s : State) (img : List Byte) (phase : Nat) : State :=
  let fw := if phase < 2 then s.mgmt.seenFw else (s.mgmt.stagedFw.map (·.image)).getD s.mgmt.fw
  { s with mgmt := { s.mgmt with seenImage := img, seenFw := fw } }

/-- Steps 3 to 7 with the image in force: memory zeroed, a die whose memory does not train marked failed, every core
scanned, CXL and links brought up, the configuration taken, ready. -/
def State.bootRest (s : State) (img : List Byte) : State :=
  let s1 := (List.range 160).foldl (fun s cl => s.bootScan cl) s.loadFirmware.zeroDevice
  let s2 := s1.mapAll.bootCxl img
  let s3 := ({ s2 with fabric := { s2.fabric with coords := Config.coords img % 2 ^ 18, rank := Config.rank img % 8
                                                  keeperSelf := Config.isKeeper img } } : State).bootLinks.takeTables
  let failed := (List.range 32).filter fun d => !Config.dieTrains d
  { s3 with
    ck := { s3.ck with disabled := !s3.safeFits img, standby := Config.isStandby img }
    mgmt := { s3.mgmt with bootPhase := 7, recov := false, bootErr := 0, failedDies := failed } }

/-- POWER_ON: the boot steps of a package that leaves reset. -/
def State.powerOn (s : State) : State :=
  if s.mgmt.bootPhase ≠ 0 || s.mgmt.recov || !s.mgmt.supply then s
  else
    let img := s.mgmt.stored
    let use (s : State) : State := { s with mgmt := { s.mgmt with image := img, nextImage := none } }
    match s.bootError img with
    | some (ph, e) =>
      let s1 := s.bootMeasure img ph
      let s2 := if ph = 2 then use s1 else s1
      { s2 with mgmt := { s2.mgmt with bootPhase := ph, recov := true, bootErr := e } }
    | none => (use (s.bootMeasure img 2)).bootRest img

def execPowerOn (s : State) : Out := .next s.powerOn

/-- SUPPLY_OUT_OF_RANGE (R441): outside the range the package is held in reset, where no input reaches it (`reachesReset`). -/
def State.supplyIs (s : State) (ok : Bool) : State :=
  if ok then { s with mgmt := { s.mgmt with supply := true } }
  else { s.afterReset with mgmt := { s.afterReset.mgmt with supply := false } }

def execSupplyOutOfRange (inRange : Bool) (s : State) : Out := .next (s.supplyIs inRange)

/-! ## Measurement (R439, R440) -/

def orFactory (n : Nat) (img : List Byte) : List Byte := if img.isEmpty then Config.factory n else img

/-- One snapshot of the measurement indices. -/
def State.measurements (s : State) : List (Nat × List Byte) :=
  [(1, sha384 Config.bootRom), (2, sha384 s.mgmt.seenImage), (3, sha384 (orFactory 3 s.mgmt.seenFw)),
   (4, sha384 (orFactory 4 s.mgmt.helperLib)), (5, sha384 (orFactory 5 s.mgmt.scanPats.image)),
   (6, leBytes 4 Config.idrev)]

/-- An answer in a port's mailbox. -/
def State.spdmReply (s : State) (port : Nat) (a : SpdmAnswer) : State :=
  if s.mgmt.supply then s.onPort port fun p => { p with spdm := some a } else s

/-- SPDM 1.3, in BCD. -/
def execGetVersion (port : Nat) (s : State) : Out := .next (s.spdmReply port (.version 0x13))

/-- Certificates, challenges and measurements; no session establishment and no key exchange. -/
def execGetCapabilities (port : Nat) (s : State) : Out := .next (s.spdmReply port (.capabilities true true true false false))

/-- ECDSA P-384 with SHA-384 only. -/
def execNegotiateAlgorithms (port : Nat) (s : State) : Out := .next (s.spdmReply port (.algorithms true true false))

/-- One certificate slot, slot 0. -/
def execGetDigests (port : Nat) (s : State) : Out := .next (s.spdmReply port (.digests [(0, sha384 Config.certChain)]))
def execGetCertificate (port : Nat) (s : State) : Out := .next (s.spdmReply port (.certificate 0 Config.certChain))

/-- The signature is over a transcript and a nonce that the model does not hold: a free value (log entry 40). -/
def execChallenge (port : Nat) (s : State) : Out :=
  .next (({ s with fresh := s.fresh + 1 } : State).spdmReply port
    (.challengeAuth 0 (sha384 Config.certChain) (Config.spdmSignature s.fresh)))
def execGetMeasurements (port : Nat) (s : State) : Out := .next (s.spdmReply port (.measurements s.measurements))

/-- The kind of an answer, and the bytes that it carries. -/
def SpdmAnswer.code : SpdmAnswer → Nat
  | .version _ => 0
  | .capabilities _ _ _ _ _ => 1
  | .algorithms _ _ _ => 2
  | .digests _ => 3
  | .certificate _ _ => 4
  | .challengeAuth _ _ _ => 5
  | .measurements _ => 6

def SpdmAnswer.carries : SpdmAnswer → List Byte
  | .version v => leBytes 1 v
  | .capabilities a b c d e => [a, b, c, d, e].map fun x => BitVec.ofNat 8 x.toNat
  | .algorithms a b c => [a, b, c].map fun x => BitVec.ofNat 8 x.toNat
  | .digests l => l.flatMap fun p => BitVec.ofNat 8 p.1 :: p.2
  | .certificate n l => BitVec.ofNat 8 n :: l
  | .challengeAuth n l r => BitVec.ofNat 8 n :: l ++ r
  | .measurements l => l.flatMap fun p => BitVec.ofNat 8 p.1 :: p.2

/-! ## Throttling and the thermal trip (R442, R443) -/

/-- A change of a die's clock step. -/
def State.clockStep (s : State) (die step : Nat) (power : Bool) : State :=
  (s.onDie die fun d => { d with clock := step }).postBoth 17 die 0
    [BitVec.ofNat 64 (die + step * 2 ^ 8 + power.toNat * 2 ^ 12)]

/-- THROTTLE_DOWN; a temperature cause is a reading above TLIM. No clock runs in a package held in reset (R441). -/
def State.throttleDown (s : State) (die : Nat) (power : Bool) : State :=
  if !s.mgmt.supply then s else
  let s1 : State := if power then s else { s with mgmt := { s.mgmt with tmax := max s.mgmt.tmax (s.mgmt.tlim + 1) } }
  if (s.die die).clock < 2 then s1.clockStep die ((s.die die).clock + 1) power else s1

def execThrottleDown (die : Nat) (power : Bool) (s : State) : Out := .next (s.throttleDown die power)

def State.throttleRaise (s : State) (die : Nat) (power : Bool) : State :=
  if s.mgmt.supply && 0 < (s.die die).clock then s.clockStep die ((s.die die).clock - 1) power else s

def execThrottleRaise (die : Nat) (power : Bool) (s : State) : Out := .next (s.throttleRaise die power)

/-- Delivers what a port's ring takes. -/
def State.deliverAll (s : State) (port : Nat) : Nat → State
  | 0 => s
  | n + 1 => match s.deliverRecord port with | some s' => s'.deliverAll port n | none => s

/-- THERMAL_TRIP at 110 °C: TYPE 18 reaches the ports, then power is gone. -/
def State.thermalTrip (s : State) (die celsius : Nat) : State :=
  if celsius < 110 then s
  else
    let s1 := s.postBoth 18 die 0 [BitVec.ofNat 64 die, BitVec.ofNat 64 celsius]
    let s2 := (s1.deliverAll 0 (s1.port 0).recs.length).deliverAll 1 (s1.port 1).recs.length
    { s2 with mgmt := { s2.mgmt with tripped := true } }

def execThermalTrip (die celsius : Nat) (s : State) : Out := .next (s.thermalTrip die celsius)

/-- TMAX: the highest reading since the last read is a free value, no less than what the package has shown; 0 in reset. -/
def State.hottest (s : State) (n : Nat) : Nat :=
  if s.mgmt.bootPhase = 0 && !s.mgmt.recov then s.mgmt.tmax % 2 ^ 8
  else max s.mgmt.tmax (Config.reading n % 2 ^ 8) % 2 ^ 8

/-- THRM_READ. -/
def State.readThrm (s : State) (port : Nat) : State :=
  let (n, s1) := s.draw
  ({ s1 with mgmt := { s1.mgmt with tmax := 0 } } : State).onPort port fun p =>
    { p with answer := some (leBytes 8 (s.mgmt.tlim + s.hottest n * 2 ^ 8), false) }

def execThrmRead (port : Nat) (s : State) : Out := .next (s.readThrm port)

/-! ## Residency (R357, R359) -/

/-- Whether a resident core may be gated. -/
def Core.gateable (k : Core) : Bool := k.resident && (k.frozen || k.mxLate || !k.needsCycles)

def State.gateCore (s : State) (c : Nat) (g : Gate) (from_ : List Gate) : State :=
  if (s.core c).gateable && from_.contains (s.core c).gate then s.onCore c fun k => { k with gate := g } else s

def execClockGate (core : Nat) (s : State) : Out := .next (s.gateCore core .clock [.run])
def execPowerGate (core : Nat) (s : State) : Out := .next (s.gateCore core .power [.run, .clock])

def State.ungate (s : State) (c : Nat) : State :=
  if (s.core c).gate = .waking then s.onCore c fun k => { k with gate := .run } else s

def execExitFromPowerGating (core : Nat) (s : State) : Out := .next (s.ungate core)

/-- The reason code of a context in a fog report: one whose argument copy is under way waits for another reason. -/
def Ctx.fogCode (k : Ctx) : Nat :=
  match k.status with
  | .idle => 0 | .held => 1 | .halted => 7 | .waiting w => w.code | .ready => if k.argWait then 8 else k.why

/-- The task a core has held longest. -/
def Core.oldest (k : Core) : Option Task :=
  (k.ctxs.filterMap fun p => p.2.task).foldl (fun b t =>
    match b with
    | none => some t
    | some u => if t.order < u.order then some t else b) none

/-- The words of a fog report. -/
def Core.fogWords (k : Core) (c : Nat) : List Word :=
  [BitVec.ofNat 64 (c + (k.frozen || k.mxLate).toNat * 2 ^ 10), (k.oldest.map (·.nodeId)).getD 0,
   BitVec.ofNat 64 (k.frzcnt % 2 ^ 32)] ++
    (List.range 4).map fun x => BitVec.ofNat 64 ((k.ctx x).pc % 2 ^ 56 + (k.ctx x).fogCode * 2 ^ 56)

/-- FOG_REPORT. -/
def State.fogReport (s : State) (c : Nat) : State :=
  let k := s.core c
  if !k.resident || k.fogged then s
  else
    let s1 := s.onCore c fun k => { k with fogged := true }
    match k.oldest with
    | some t => s1.postPort (s.queue t.queue).owner 8 (dieOf c) t.queue (k.fogWords c)
    | none => s1.postBoth 8 (dieOf c) 0 (k.fogWords c)

def execFogReport (core : Nat) (s : State) : Out := .next (s.fogReport core)

/-! ## Memory and links (R73, R79, R395) -/

/-- The row of a die's device memory that holds an offset, by its 64 KiB frame (log entry 53). -/
def rowOf (x : Nat) : Nat := x / 2 ^ 16

/-- Whether the row at an offset is faulted: a granule of it is poisoned by an uncorrectable error, or it has eight or
more corrected errors within 24 hours (R73). -/
def Die.rowBad (d : Die) (x : Nat) : Bool := d.badRows.contains (rowOf x) || 8 ≤ d.rowErrs.get (rowOf x) 0

/-- Whether the row at an offset has been reported since its last uncorrectable error. -/
def Die.rowTold (d : Die) (x : Nat) : Bool := d.rowFaults.any fun p => rowOf p.2 = rowOf x

/-- ROW_FAULT: the controller of a faulted row reports it to its die's distributor (R71, R73). -/
def State.rowFault (s : State) (die ctl row : Nat) : State :=
  if ctl = ctlOf row && (s.die die).rowBad row && !(s.die die).rowTold row then
    (s.onDie die fun d => { d with rowFaults := d.rowFaults ++ [(ctl, row)] }).postEvent die 4
      [BitVec.ofNat 64 (deviceKey die row), BitVec.ofNat 64 (ctl % 4), 0, 0]
  else s

def execRowFault (die ctl row : Nat) (s : State) : Out := .next (s.rowFault die ctl row)

/-- A row fault that a die's controllers have still to report. -/
def Die.dueRow (d : Die) : Option Nat :=
  ((d.badRows ++ d.rowErrs.map (·.1)).map (· * 2 ^ 16)).find? fun x => d.rowBad x && !d.rowTold x

/-- Corrections of a controller in one row (R72, R73). -/
def Die.correct (d : Die) (ctl row n : Nat) : Die :=
  { d with corrected := d.corrected.set ctl (d.corrected.get ctl 0 + n), rowErrs := d.rowErrs.set row (d.rowErrs.get row 0 + n) }

/-- PATROL_SCRUB: corrections are written back and counted; contents do not change (R72). -/
def State.scrub (s : State) (die : Nat) : State :=
  (List.range 4).foldl (fun s ctl =>
    let (n, s1) := s.draw
    s1.onDie die fun d => d.correct ctl (Config.correctedRow n % 196608 * 4 + ctl) (Config.corrections n)) s

def execPatrolScrub (die : Nat) (s : State) : Out := .next (s.scrub die)

/-- Whether a key is a byte that poison covers: of device memory, the second tier, the ring, a scratchpad. -/
def State.poisonable (s : State) (k : Nat) : Bool :=
  deviceByte k || (secondBase ≤ k && k < secondBase + s.secondBytes) || (ringBase ≤ k && k < ringBase + 2 ^ 31) ||
    (spadKey 0 0 ≤ k && k < spadKey 640 0)

/-- A memory error (R41, R55, R68, R72, R73, R75; log entry 53): an uncorrectable one poisons its line or its row of a
tile; in device memory it faults the row; a corrected one is counted. -/
def State.memError (s : State) : MemError → State
  | .line k =>
    if !s.poisonable k then s
    else
      let s1 : State := { s with poison := insSorted s.poison (k / 64) }
      if deviceByte k then
        s1.onDie (k / 2 ^ 36) fun d =>
          let x := k % 2 ^ 36
          { d with badRows := if d.badRows.contains (rowOf x) then d.badRows else d.badRows ++ [rowOf x]
                   rowFaults := d.rowFaults.filter fun p => rowOf p.2 ≠ rowOf x }
      else s1
  | .acc c t row => s.onCore c fun k => { k with acc := k.acc.set t ((k.acc.get t {}).setPoison row true) }
  | .corrected d x => s.onDie d fun k => k.correct (ctlOf x) (rowOf x) 1
  | .aged d x => s.onDie d fun k =>
      let n := k.rowErrs.get (rowOf x) 0 - 1
      { k with rowErrs := k.rowErrs.set (rowOf x) n
               rowFaults := if n < 8 && !k.badRows.contains (rowOf x) then k.rowFaults.filter fun p => rowOf p.2 ≠ rowOf x
                 else k.rowFaults }

/-- CXL_PORT_DOWN: the port stays offline, checkpoints need it (R79, R87). -/
def State.cxlPortDown (s : State) (port : Nat) : State :=
  if !s.mgmt.supply || s.cxlDown.contains port then s
  else
    let cap := if s.ck.phase = 3 && s.ck.capFailed.isNone then some port else s.ck.capFailed
    { s with ck := { s.ck with disabled := true, capFailed := cap } }.portOff port

def execCxlPortDown (port : Nat) (s : State) : Out := .next (s.cxlPortDown port)

/-- The host's accesses in flight when the last link of a port dies: dropped, unapplied (R395); their stream numbers count
as executed, so the streams go on. -/
def State.dropHost (s : State) (port : Nat) : State :=
  let mine (r : Req) : Bool := r.agent = .host port
  let gone := s.net.filter mine ++ (s.parked.filter fun p => mine p.req).map (·.req)
  let s1 := gone.foldl (fun s r => r.homes.foldl (fun s h => if h.2 = 0 then s else s.applied h.1 r.src h.2) s) s
  { s1 with net := s1.net.filter fun r => !mine r
            parked := s1.parked.filter fun p => !mine p.req
            results := s1.results.filter fun r => r.agent ≠ .host port }

/-- A port's link is reported lost: the LAMP is freed when the port held it (R192); when no link of the bridge is left, its
accesses in flight are dropped (R395). -/
def State.portLost (s : State) (all : Bool) (port : Nat) : State :=
  let s1 := if all then (s.dropHost port).onPort port fun p => { p with gone := true, apq := [] } else s
  let s2 := s1.onPort port fun p => { p with linkLost := true }
  if s.lamp = lampOf port then ({ s2 with lamp := 0 } : State).postPort (1 - port) 7 0 0 [] else s2

/-- The adapter reports a link lost for both ports that it carries (R395); `all`: no link of the bridge is left. -/
def State.linkLostNow (s : State) (all : Bool) : State := (s.portLost all 0).portLost all 1

/-- BRIDGE_LINK_LOST: the PCIe link, or the last of the bridge links, is lost; the port that the event names stands for the
adapter, which carries both (R391, R395). -/
def execBridgeLinkLost (_port : Nat) (s : State) : Out := .next (s.linkLostNow true)

/-- BRIDGE_LINK_RETURN: the links of the bridge are back for both ports. -/
def State.linkBack (s : State) : State :=
  let up (s : State) (n : Nat) : State := s.onPort n fun p => { p with linkLost := false, gone := false }
  let l := s.fabric.links.map fun p => if Config.isBridge s.mgmt.image (p.1 / 16) (p.1 % 16) then (p.1, {}) else p
  up (up { s with fabric := { s.fabric with links := l } } 0) 1

def execBridgeLinkReturn (_port : Nat) (s : State) : Out := .next s.linkBack

end Sys2Proof.Machine
end

