-- ==== Sys2Proof/Machine/Aperture.lean ====
section
/-! DEFINITION. The host bridge (R391, R392): accesses of the host agent through the apertures of a port, at this package or
across the fabric at another one of the mooring. -/

namespace Sys2Proof.Machine

/-- The entry an access goes through. -/
def State.apEntry (s : State) (port off : Nat) : Aperture := (s.port port).ap.get (off / 2 ^ 30) {}

/-- The virtual address of an access: VBASE and the offset. VBASE ends at bit 46 (R392), so no entry names a ring address
(bits [55:48] 0xFD) although R69 lists the host among the ring's agents, and software may leave VBASE [29:16] not 0,
against its 1 GiB alignment: the sum is taken as it stands (DESIGN CHOICE, log entry 55). -/
def Aperture.va (e : Aperture) (off : Nat) : Nat := e.vbase * 2 ^ 16 + off % 2 ^ 30

/-- BRERR advances and saturates. -/
def State.brerr (s : State) (port : Nat) : State :=
  s.onPort port fun p => { p with brerr := min (p.brerr + 1) (2 ^ 32 - 1) }

/-- The answer of a read: its bytes and whether it completes poisoned, which BRERR counts. -/
def State.apAnswer (s : State) (port : Nat) (bs : List Byte) (poison : Bool) : State :=
  let s1 := s.onPort port fun p => { p with answer := some (bs, poison) }
  if poison then s1.brerr port else s1

/-- A read that fails: every byte 0xFF. -/
def State.apFails (s : State) (port n : Nat) : State := s.apAnswer port (List.replicate n 0xFF) true

/-- What an access has come to, at the port that the host made it through: it failed, or its bytes. -/
def State.apDone (s : State) (port : Nat) (r : ApReq) (bad : Bool) (bs : List Byte) (poison : Bool) : State :=
  match r.data with
  | none => if bad then s.apFails port r.size else s.apAnswer port bs poison
  | some _ => if bad then s.brerr port else s

/-- The tag of an access of the host agent under way, apart from those of a port's commands. -/
def ApReq.accTag (r : ApReq) : Nat := 2 ^ 128 + r.tag

/-- An access of the host agent to this package; none while it waits, else the state and, once it has been made, whether it
failed, its bytes and their poison. -/
def State.apLocal (s : State) (port asid va : Nat) (r : ApReq) : Option (State × Option (Bool × List Byte × Bool)) :=
  match r.data with
  | none =>
    let a : Acc := { agent := .host port, kind := .load, asid }
    match s.askRead a r.accTag [] [(va, r.size)] with
    | .still => none
    | .went s1 => some (s1, none)
    | .got p _ s1 =>
      let no := !p.declined.isEmpty || (s.placesOf a 0 [] va r.size .raw).any fun c => c.2 = .declined
      some (s1, some (no, p.data.flatten.map (·.1), gotPoison p.data.flatten))
  | some data =>
    let a : Acc := { agent := .host port, kind := .store, asid }
    match s.ask a r.accTag [] 0 0 [.raw va data false] none with
    | .still => none
    | .went s1 => some (s1, none)
    | .got p _ s1 => some (s1, some (!p.declined.isEmpty, [], false))

/-- An access joins those of its port under a tag of its own. -/
def State.apAdd (s : State) (port : Nat) (r : ApReq) : State :=
  ({ s with fresh := s.fresh + 1 } : State).onPort port fun p => { p with apq := p.apq ++ [{ r with tag := s.fresh }] }

/-- An access is over. -/
def State.apDrop (s : State) (port tag : Nat) : State :=
  s.onPort port fun p => { p with apq := p.apq.filter fun r => r.tag ≠ tag }

/-- The coordinates of package `p` of the mooring (R391). -/
def State.mooringAt (s : State) (p : Nat) : Nat := (Config.mooring s.mgmt.image).getD p 0

/-- What an access can do now; none while it waits. Traffic to another package crosses the fabric: its request in a packet
of CLASS 0, the answer in one of CLASS 1 (R380, R391). -/
def State.apOne (s : State) (port : Nat) (r : ApReq) : Option State :=
  match r.at_ with
  | some (head, asid, va) =>
    (s.apLocal port asid va r).map fun x =>
      match x.2 with
      | none => x.1
      | some (bad, bs, poison) =>
        (x.1.queuePacket 0 1 head false (.answer port r.off bs bad poison)).apDrop port r.tag
  | none =>
    let e := s.apEntry port r.off
    if r.sent then none
    else if !e.v then some ((s.apDone port r true [] false).apDrop port r.tag)
    else if e.pkg ≠ Config.mooringIndex s.mgmt.image then
      (s.sendPacket 0 0 (s.mooringAt e.pkg) false (.access port r.ordered e.asid (e.va r.off) r.size r.data r.tag)).map fun s1 =>
        s1.onPort port fun p => { p with apq := p.apq.map fun q => if q.tag = r.tag then { q with sent := true } else q }
    else (s.apLocal port e.asid (e.va r.off) r).map fun x =>
      match x.2 with
      | none => x.1
      | some (bad, bs, poison) => (x.1.apDone port r bad bs poison).apDrop port r.tag

/-- Whether an access waits for earlier ones of its port: an ordered write is a release and follows them all, and all
follow an ordered read, an acquire (R130, R391). -/
def ApReq.after (r : ApReq) (before : List ApReq) : Bool :=
  (r.ordered && r.data.isSome && !before.isEmpty) || before.any fun q => q.ordered && q.data.isNone

/-- The first access of a port that can do something. -/
def State.apFirst (s : State) (port : Nat) : List ApReq → List ApReq → Option State
  | _, [] => none
  | before, r :: rest =>
    match (if r.after before then none else s.apOne port r) with
    | some s' => some s'
    | none => s.apFirst port (before ++ [r]) rest

def State.apNow (s : State) (port : Nat) : Option State := s.apFirst port [] (s.port port).apq

/-- An access of the head arrives at this package. -/
def State.apArrives (s : State) (head port : Nat) (ordered : Bool) (asid va size : Nat) (data : Option (List Byte))
    (tag : Nat) : State :=
  s.apAdd port { ordered, off := tag, size, data, at_ := some (head, asid, va) }

/-- The answer to an access that this package sent for the host. -/
def State.apAnswered (s : State) (port tag : Nat) (bs : List Byte) (bad poison : Bool) : State :=
  match (s.port port).apq.find? fun r => r.tag = tag && r.sent with
  | some r => (s.apDone port r bad bs poison).apDrop port tag
  | none => s

end Sys2Proof.Machine
end

