-- ==== Sys2Proof/Machine/Fabric.lean ====
section
/-! DEFINITION. The Bureel fabric at this package: links (R379, R395), the switch and combining (R380, R381, R390), end-to-end
delivery (R382, R383), daymarks and the keeper (R385, R386). -/

namespace Sys2Proof.Machine

/-! ## Links (R379) -/

def linkNo (face link : Nat) : Nat := 16 * face + link
def Fabric.link (f : Fabric) (face link : Nat) : Link := f.links.get (linkNo face link) {}

def State.onFabric (s : State) (f : Fabric → Fabric) : State := { s with fabric := f s.fabric }
def State.onLink (s : State) (face link : Nat) (f : Link → Link) : State :=
  s.onFabric fun b => { b with links := b.links.set (linkNo face link) (f (b.link face link)) }

/-! ## Routing (R379, R381) -/

/-- The face of dimension order at a package: the first dimension that differs, the shorter way round, + when both are
equal. -/
def State.faceAt (s : State) (pkg dst : Nat) : Option Nat :=
  ([0, 1, 2].find? fun d => coordOf dst d ≠ coordOf pkg d).map fun d =>
    let n := s.extent d
    let up := (coordOf dst d + n - coordOf pkg d % n) % n
    2 * d + if 2 * up ≤ n then 1 else 0

def State.orderFace (s : State) (dst : Nat) : Option Nat := s.faceAt s.fabric.coords dst

/-- Whether the way of dimension order from a package crosses a face that the routing tables give as dead: at most 32 hops
in each dimension. -/
def State.barred (s : State) (dst : Nat) : Nat → Nat → Bool
  | 0, _ => false
  | n + 1, pkg =>
    match s.faceAt pkg dst with
    | none => false
    | some f => s.fabric.table.contains (faceCode (pkg, f)) || s.barred dst n (s.beyond pkg f)

/-- The face on which a packet leaves: that of dimension order, or, where a dead face bars its way, one of another dimension
that the routing tables of the current daymark may give (R381). -/
def State.outFace (s : State) (dst : Nat) : Option Nat :=
  (s.orderFace dst).map fun f =>
    if s.faceDead f || s.barred dst 96 s.fabric.coords then
      match Config.detour s.fabric.table dst with
      | some g => if g < 6 && g / 2 ≠ f / 2 && !s.faceDead g then g else f
      | none => f
    else f

/-- The link on which a packet leaves: of its face's live links, the one that the hash picks. None while the face has no
live link. -/
def State.route (s : State) (p : Packet) : Option (Nat × Nat) :=
  (s.outFace p.dst).bind fun f =>
    let live := (List.range 16).filter fun l => !(s.fabric.link f l).dead && !Config.isBridge s.mgmt.image f l
    live[Config.linkHash p.src p.sdie p.eseq % live.length]?.map fun l => (f, l)

/-- A packet that has passed the switch: it arrives here, leaves on a link, or waits in the switch for one. -/
def State.forwardOn (s : State) (p : Packet) : State :=
  if p.dst = s.fabric.coords then { s with agenda := s.agenda ++ [.event (.fabricPacketArrival p)] }
  else match s.route p with
    | some (f, l) => s.onLink f l fun k => { k with last := some p }
    | none => s.onFabric fun f => { f with out := f.out ++ [p] }

/-- A control message (CLASS 4) to a package. -/
def State.sendControl (s : State) (dst : Nat) (body : Payload) : State :=
  s.onFabric fun f =>
    { f with out := f.out ++ [{ daymark := f.daymark, cls := 4, cmb := false, dst, src := f.coords, sdie := 0, eseq := 0, body }] }

/-- The keeper: the image's, or the standby that has taken over. -/
def State.keeper (s : State) : Nat := s.fabric.keeperAt.getD (Config.keeper s.mgmt.image)

/-! ## Deaths of links (R379, R385, R386) -/

/-- The bridge links of this package, as head of its mooring (R391). -/
def State.bridgeLinks (s : State) : List (Nat × Nat) :=
  ((List.range 96).map fun n => (n / 16, n % 16)).filter fun l => Config.isBridge s.mgmt.image l.1 l.2

/-- A bridge link of the head dies: the adapter reports the link lost for both ports; while another one lives no access is
lost, since the adapter sends again on it (R395). -/
def State.bridgeDead (s : State) (face link : Nat) : State :=
  let s1 := s.onLink face link fun l => { l with dead := true, reported := true }
  s1.linkLostNow (s1.bridgeLinks.all fun l => (s1.fabric.link l.1 l.2).dead)

/-- A link is declared dead: reported to the keeper, TYPE 13, and TYPE 15 with the face's last one. -/
def State.linkDead (s : State) (face link : Nat) : State :=
  if (s.fabric.link face link).dead then s
  else if Config.isBridge s.mgmt.image face link then s.bridgeDead face link
  else
    let s1 := (s.onLink face link fun l => { l with dead := true, reported := true }).sendControl s.keeper
      (.report s.fabric.coords face link)
    let s2 := s1.postBoth 13 0 0 [BitVec.ofNat 64 (face + link * 2 ^ 4)]
    if s2.faceDead face then s2.postFace face else s2

/-- LINK_FLIT: a flit whose CRC fails is sent again; its failures in a row are counted, the first sending's among them. -/
def State.linkFlit (s : State) (face link : Nat) (ok : Bool) : State :=
  if (s.fabric.link face link).dead then s
  else s.onLink face link fun l => { l with resends := if ok then 0 else l.resends + 1 }

def execLinkFlit (face link : Nat) (crcOk : Bool) (s : State) : Out := .next (s.linkFlit face link crcOk)

/-- Whether eight resends of a flit have failed in a row. -/
def Link.exhausted (l : Link) : Bool := 8 < l.resends

/-- LINK_RESEND_LIMIT. -/
def execLinkResendLimit (face link : Nat) (s : State) : Out :=
  .next (if (s.fabric.link face link).exhausted then s.linkDead face link else s)

def execLinkLockLoss (face link : Nat) (s : State) : Out := .next (s.linkDead face link)
def execHeartbeatTimeout (face link : Nat) (s : State) : Out := .next (s.linkDead face link)

/-! ## Daymarks (R385) -/

def nextDaymark (d : Nat) : Nat := (d + 1) % 256

/-- Packets that a die replays: those above ACKED whose bit is not set, under the daymark in force. -/
def State.replayOf (s : State) (die dst : Nat) : List Packet :=
  ((s.die die).send.get dst {}).retry.map fun p => { p with daymark := s.fabric.daymark }

/-- A collective under way at a daymark change re-runs every chunk that not all members have acknowledged: what it has
asked for is made without it, the partial state of those chunks is dropped, TYPE 16 names the first of them (R386, R389). -/
def State.restartColl (s : State) (i : EngItem) : State :=
  match i.cmd with
  | .collRun r =>
    match (s.groups.find? fun p => p.1 = r.blk.group).map (·.2) with
    | none => s
    | some g =>
      match r.open_ g with
      | [] => s
      | p :: l =>
        let e := Agent.engine i.core .coll
        let first := l.foldl (fun n q => min n q.chunk) p.chunk
        let open_ := (p :: l).map (collKey r.blk r.k)
        let r1 := { r with run := s.fabric.daymark, writing := none, parts := r.parts.filter fun q => !open_.contains q.1 }
        (((s.disown e i.readTag).disown e i.writeTag).setItem i.core .coll i (.collRun r1)).postBoth 16 0 0
          [BitVec.ofNat 64 r.blk.group, BitVec.ofNat 64 r.k, BitVec.ofNat 64 first]
  | _ => s

/-- The switch makes a staged daymark current: other packets go, combining tables empty, source dies replay, TYPE 14 is
posted, collectives under way restart, and a standby assumes its identity (R377, R385, R389, R390). -/
def State.switchTo (s : State) (d : Nat) (table : List Nat) : State :=
  let s1 := s.onFabric fun f =>
    { f with daymark := d, table, staged := none, combine := [], out := f.out.filter fun p => p.daymark = d }
  let again := s1.dies.flatMap fun p => p.2.send.flatMap fun q => s1.replayOf p.1 q.1
  let s2 := (s1.onFabric fun f => { f with out := f.out ++ again }).postBoth 14 0 0 [BitVec.ofNat 64 d]
  (s2.coll.queue.foldl State.restartColl s2).takeIdentity

/-- The keeper starts a change for the deaths it knows: tables to every switch. -/
def State.keeperStart (s : State) (deaths : List (Nat × Nat × Nat)) : State :=
  let s1 := s.onFabric fun f => { f with keeperDeaths := deaths, keeperNext := [], keeperBusy := true, confirmed := [], order := none }
  (Config.pod s.mgmt.image).foldl (fun s pkg => s.sendControl pkg (.stage (nextDaymark s.fabric.keeperFrom) (routesOf s.mgmt.image deaths))) s1

/-- At the keeper the change is over once its own switch has the new daymark, by the order or by a packet; deaths
reported meanwhile start the next. -/
def State.keeperDone (s : State) (d : Nat) : State :=
  if s.fabric.order = some d then
    let s1 := s.onFabric fun f => { f with keeperBusy := false, order := none, keeperFrom := d }
    if s1.fabric.keeperNext.isEmpty then s1 else s1.keeperStart (s1.fabric.keeperDeaths ++ s1.fabric.keeperNext)
  else s

/-- A packet or an order for the staged daymark makes it current (R385). -/
def State.switchIf (s : State) (d : Nat) : State :=
  match s.fabric.staged with
  | some (e, table) => if e = d then (s.switchTo d table).keeperDone d else s
  | none => s

/-- KEEPER_LINK_REPORT: starts a change, or is folded into the next one. -/
def State.keeperReport (s : State) (pkg face link : Nat) : State :=
  if !s.fabric.keeperSelf then s
  else if s.fabric.keeperBusy then s.onFabric fun f => { f with keeperNext := f.keeperNext ++ [(pkg, face, link)] }
  else s.keeperStart (s.fabric.keeperDeaths ++ [(pkg, face, link)])

def execKeeperLinkReport (face link : Nat) (s : State) : Out := .next (s.keeperReport (face / 8) (face % 8) link)

/-- DAYMARK_STAGE: the tables are staged and the keeper is told. -/
def State.stageTables (s : State) (d : Nat) (table : List Nat) : State :=
  (s.onFabric fun f => { f with staged := some (d, table) }).sendControl s.keeper (.confirm s.fabric.coords)

def execDaymarkStage (d : Nat) (table : List Nat) (s : State) : Out := .next (s.stageTables d table)

/-- STAGING_CONFIRMED: when every switch has confirmed, the keeper sends the switch order, to itself last. -/
def State.stagingConfirmed (s : State) (pkg : Nat) : State :=
  if !s.fabric.keeperSelf || !s.fabric.keeperBusy || s.fabric.order.isSome then s
  else
    let d := nextDaymark s.fabric.keeperFrom
    let s1 := s.onFabric fun f => { f with confirmed := insSorted f.confirmed pkg }
    let pod := Config.pod s.mgmt.image
    if pod.all s1.fabric.confirmed.contains then
      ((pod.filter (· ≠ s.fabric.coords)) ++ pod.filter (· = s.fabric.coords)).foldl (fun s pkg => s.sendControl pkg (.order d))
        (s1.onFabric fun f => { f with order := some d })
    else s1

def execStagingConfirmed (pkg : Nat) (s : State) : Out := .next (s.stagingConfirmed pkg)

/-- DAYMARK_SWITCH: the switch order. -/
def execDaymarkSwitch (d : Nat) (s : State) : Out := .next (s.switchIf d)

/-- The highest daymark that any switch reports (R385), this package's own among them. -/
def State.highestDaymark (s : State) (n : Nat) : Nat :=
  let h := Config.highestDaymark n % 256
  if (h + 256 - s.fabric.daymark % 256) % 256 < 128 then h else s.fabric.daymark % 256

/-- KEEPER_TIMEOUT: the standby keeper takes over from the highest daymark that any switch reports, and starts a change
for the deaths it learns of. -/
def State.keeperTakes (s : State) : State :=
  if !Config.isStandbyKeeper s.mgmt.image || s.fabric.keeperSelf then s
  else
    let (n, s1) := s.draw
    (s1.onFabric fun f => { f with keeperSelf := true, keeperAt := some f.coords, order := none
                                   keeperFrom := s.highestDaymark n }).keeperStart (Config.deathsKnown n)

def execKeeperTimeout (s : State) : Out := .next s.keeperTakes

/-! ## The switch (R380, R381, R390) -/

/-- The packet of an entry: that which opened it, with all contributions and the numbers of the others. -/
def Combine.packet (e : Combine) : Packet :=
  match e.first.body with
  | .piece key op _ run _ => { e.first with body := .piece key op e.ncon run e.vals, also := e.also }
  | _ => e.first

/-- The numbers of a packet: its own and those of the packets combined into it. -/
def packetNumbers (p : Packet) : List (Nat × Nat × Nat) := (p.src, p.sdie, p.eseq) :: p.also

/-- Whether a packet's partials may join an entry: of one run, for one destination (log entry 23). -/
def Combine.mates (e : Combine) (key run dst : Nat) : Bool :=
  e.key = key && e.first.dst = dst && (match e.first.body with | .piece _ _ _ n _ => decide (n = run) | _ => false)

/-- A reduction packet that may be combined: it joins or opens an entry; none when the table is full. -/
def State.combineIn (s : State) (p : Packet) : Option State :=
  match p.body with
  | .piece key op ncon run vals =>
    if !p.cmb then none
    else if s.fabric.combine.any fun e => e.mates key run p.dst then
      let join (e : Combine) : Combine :=
        { e with ncon := e.ncon + ncon, vals := addVals op e.vals vals, also := e.also ++ packetNumbers p }
      some (s.onFabric fun f =>
        { f with combine := f.combine.map fun e => if e.mates key run p.dst then join e else e })
    else if s.fabric.combine.length < 256 && !(s.fabric.combine.any fun e => e.key = key) then
      some (s.onFabric fun f => { f with combine := f.combine ++ [{ key, ncon, vals, first := p, also := p.also }] })
    else none
  | _ => none

/-- An entry leaves as one packet. -/
def State.combineOut (s : State) (key : Nat) : State :=
  match s.fabric.combine.find? fun e => e.key = key with
  | none => s
  | some e => (s.onFabric fun f => { f with combine := f.combine.filter fun e => e.key ≠ key }).forwardOn e.packet

/-- Whether an entry holds every contribution that comes through this switch. -/
def State.combineFull (s : State) (key : Nat) : Bool :=
  s.fabric.combine.any fun e => e.key = key && Config.contributions s.fabric.table key ≤ e.ncon

/-- COMBINING_TIMEOUT. -/
def execCombiningTimeout (key : Nat) (s : State) : Out := .next (s.combineOut key)

/-- The key of a reduction packet. -/
def pieceKey (p : Packet) : Nat := match p.body with | .piece key _ _ _ _ => key | _ => 0

/-- Whether a packet carries a reserved CLASS or a must-be-0 bit that is set. -/
def packetFaulty (p : Packet) : Bool := 5 ≤ p.cls || p.mbz ≠ 0

/-- SWITCH_FORWARD: a faulty packet goes and is counted; one of the staged daymark makes it current; one of another
daymark goes; the rest combine, arrive here or leave on a link. -/
def State.forwardPacket (s : State) (p : Packet) : State :=
  let s0 := s.onFabric fun f => { f with out := f.out.erase p }
  if packetFaulty p then s0.onFabric fun f => { f with errors := f.errors + 1 }
  else
    let s1 := s0.switchIf p.daymark
    if p.daymark ≠ s1.fabric.daymark then s1
    else match s1.combineIn p with
      | some s2 => if s2.combineFull (pieceKey p) then s2.combineOut (pieceKey p) else s2
      | none => s1.forwardOn p

def execSwitchForward (p : Packet) (s : State) : Out := .next (s.forwardPacket p)

/-- Whether a packet in the switch can go on now. -/
def State.forwardable (s : State) (p : Packet) : Bool :=
  packetFaulty p || p.daymark ≠ s.fabric.daymark || p.dst = s.fabric.coords || (s.combineIn p).isSome || (s.route p).isSome

/-! ## End-to-end delivery (R382, R383) -/

def recvKey (src sdie : Nat) : Nat := 32 * src + sdie
def State.recvOf (s : State) (src sdie : Nat) : RecvState := s.fabric.recv.get (recvKey src sdie) {}
def State.setRecv (s : State) (src sdie : Nat) (r : RecvState) : State :=
  s.onFabric fun f => { f with recv := f.recv.set (recvKey src sdie) r }

/-- How far a number lies above another (R138). -/
def above (n cum : Nat) : Nat := (n + 2 ^ 32 - cum % 2 ^ 32) % 2 ^ 32

/-- CUM advances over every contiguous set bit. -/
def advanceCum (cum : Nat) (got : List Nat) : Nat → Nat
  | 0 => cum
  | f + 1 => if got.contains ((cum + 1) % 2 ^ 32) then advanceCum ((cum + 1) % 2 ^ 32) got f else cum

/-- E2E_ACK_ARRIVAL: copies acknowledged leave the retry buffer, and what waited for the window goes out. -/
def State.e2eAck (s : State) (die dst cum : Nat) (got : List Nat) : State :=
  let s1 := s.onDie die fun d =>
    let st := d.send.get dst {}
    let a := if seqGe cum st.acked && seqGe st.last cum then cum else st.acked
    let g := (st.got ++ got).filter fun n => !seqGe a n
    { d with send := d.send.set dst { st with
        acked := a, got := g.eraseDups, retry := st.retry.filter fun p => !seqGe a p.eseq && !g.contains p.eseq } }
  let w := s1.fabric.wait
  w.foldl (fun s x => s.queuePacket x.1 x.2.1 x.2.2.1 x.2.2.2.1 x.2.2.2.2) (s1.onFabric fun f => { f with wait := [] })

def execE2eAckArrival (sdie dst cum : Nat) (got : List Nat) (s : State) : Out := .next (s.e2eAck sdie dst cum got)

/-- One more part of a put or of a get's data: what it is and all its bytes, once they are all there. -/
def State.joinPart (s : State) (src : Nat) (body : Payload) (pos total : Nat) (data : List (Byte × Bool)) :
    State × Option (List (Byte × Bool)) :=
  let is (q : Parts) : Bool := q.src = src && q.body = body
  let got := ((s.fabric.parts.find? is).elim [] (·.got)) ++ [(pos, data)]
  let rest := s.fabric.parts.filter fun q => !is q
  if (got.map (·.2.length)).sum < total then
    (s.onFabric fun f => { f with parts := rest ++ [{ src, body, total, got }] }, none)
  else
    (s.onFabric fun f => { f with parts := rest },
     some ((packetPlaces total).flatMap fun p => ((got.find? fun g => g.1 = p).map (·.2)).getD []))

/-- What a packet delivers. -/
def State.passOn (s : State) (p : Packet) : State :=
  match p.body with
  | .put w => { s with agenda := s.agenda ++ [.event (.windowPutArrival w)] }
  | .putPart w pos total =>
    match s.joinPart p.src (.put { w with data := [] }) pos total w.data with
    | (s1, some data) => { s1 with agenda := s1.agenda ++ [.event (.windowPutArrival { w with data })] }
    | (s1, none) => s1
  | .get w => { s with agenda := s.agenda ++ [.event (.windowGetArrival w)] }
  | .getData core wp num data => s.getData core wp num data
  | .dataPart core wp num pos total data =>
    match s.joinPart p.src (.getData core wp num []) pos total data with
    | (s1, some data) => s1.getData core wp num data
    | (s1, none) => s1
  | .putAck core wp num poison => s.putAck core wp num poison
  | .e2eAck cum got => s.e2eAck p.sdie p.src cum got
  | .report pkg face link => s.keeperReport pkg face link
  | .stage d table => (s.onFabric fun f => { f with keeperAt := some p.src }).stageTables d table
  | .confirm pkg => s.stagingConfirmed pkg
  | .order d => s.switchIf d
  | .piece key op ncon run vals => s.collArrives (.piece key op ncon run vals)
  | .result key run vals => s.collArrives (.result key run vals)
  | .collAck g k chunk rank => s.collArrives (.collAck g k chunk rank)
  | .regWrite port off v => s.onPort port fun q => { q with regq := q.regq ++ [(off % 2 ^ 16, v)] }
  | .access port ordered asid va size data tag => s.apArrives p.src port ordered asid va size data tag
  | .answer port tag bytes bad poison => s.apAnswered port tag bytes bad poison

/-- Whether a packet number of a source is new here and in the window (R383). -/
def State.newNumber (s : State) (n : Nat × Nat × Nat) : Bool :=
  let r := s.recvOf n.1 n.2.1
  let a := above n.2.2 r.cum
  0 < a && a ≤ 1024 && !r.got.contains n.2.2

/-- A packet number is taken: its bit is set and CUM advances. -/
def State.takeNumber (s : State) (n : Nat × Nat × Nat) : State :=
  let r := s.recvOf n.1 n.2.1
  let g := r.got ++ [n.2.2]
  let c := advanceCum r.cum g g.length
  s.setRecv n.1 n.2.1 { cum := c, got := g.filter fun m => !seqGe c m, owed := true }

/-- FABRIC_PACKET_ARRIVAL: a numbered packet is passed on once. One that a switch has combined carries several numbers: it
is passed on when all are new, else dropped, and the sources send again what has not arrived (log entry 23). -/
def State.packetArrives (s : State) (p : Packet) : State :=
  if p.cls = 2 || p.cls = 4 then s.passOn p
  else
    let r := s.recvOf p.src p.sdie
    let n := above p.eseq r.cum
    if n = 0 || 2 ^ 31 ≤ n || r.got.contains p.eseq then s.setRecv p.src p.sdie { r with owed := true }
    else if n ≤ 1024 && p.also.all s.newNumber then ((packetNumbers p).foldl State.takeNumber s).passOn p
    else s

def execFabricPacketArrival (p : Packet) (s : State) : Out := .next (s.packetArrives p)

/-- E2E_ACK_SEND: CUM and the bitmap go back to the source, which finds its die in SDIE. -/
def State.e2eAckSend (s : State) (src sdie : Nat) : State :=
  let r := s.recvOf src sdie
  let p : Packet := { daymark := s.fabric.daymark, cls := 2, cmb := false, dst := src, src := s.fabric.coords, sdie, eseq := 0
                      body := .e2eAck r.cum r.got }
  (s.setRecv src sdie { r with owed := false }).onFabric fun f => { f with out := f.out ++ [p] }

def execE2eAckSend (src sdie : Nat) (s : State) : Out := .next (s.e2eAckSend src sdie)

/-- REPLAY_TIMEOUT: every packet not acknowledged goes out again under the current daymark. -/
def State.replay (s : State) (die dst : Nat) : State :=
  s.onFabric fun f => { f with out := f.out ++ s.replayOf die dst }

def execReplayTimeout (sdie dst : Nat) (s : State) : Out := .next (s.replay sdie dst)

/-- Events of the fabric that are due. -/
def State.dueFabric (s : State) : Option Instr :=
  (s.fabric.links.findSome? fun l =>
    if l.2.exhausted && !l.2.dead then some (.linkResendLimit (l.1 / 16) (l.1 % 16)) else none).orElse fun _ =>
  (s.fabric.recv.findSome? fun r => if r.2.owed then some (.e2eAckSend (r.1 / 32) (r.1 % 32)) else none).orElse fun _ =>
  (s.fabric.out.find? s.forwardable).map .switchForward

end Sys2Proof.Machine
end

