-- ==== Sys2Proof/Machine/Command.lean ====
section
/-! DEFINITION. The control-port register window (R195), the command register (R194, R196), accesses through the host
apertures (R392), and what a port goes on with when it had to wait. -/

namespace Sys2Proof.Machine

/-! ## Apertures (R391, R392) -/

/-- An access of the host through an aperture: it joins those of its port and is made at once when it can be. -/
def State.aperture (s : State) (port : Nat) (r : ApReq) : State :=
  if s.mgmt.bootPhase ≠ 7 || (s.port port).gone then s
  else
    let s1 := s.apAdd port r
    (s1.apNow port).getD s1

def execApertureRead (port : Nat) (ordered : Bool) (off size : Nat) (s : State) : Out :=
  .next (s.aperture port { ordered, off, size, data := none })
def execApertureWrite (port : Nat) (ordered : Bool) (off : Nat) (data : List Byte) (s : State) : Out :=
  .next (s.aperture port { ordered, off, size := data.length, data := some data })

/-! ## Commands by their code (R194, R196) -/

def State.unknownCmd (s : State) (code : Nat) (c : Cmd) : State := s.startCmd c code true true fun s => s.ends c code .unknown

/-- A write of CMD. -/
def State.writeCmd (s : State) (code : Nat) (c : Cmd) : State :=
  match code with
  | 0x10 => s.queueCreate c
  | 0x11 => s.queueDestroy c
  | 0x12 => s.queueSuspend c
  | 0x13 => s.queueResume c
  | 0x14 => s.queueTransfer c
  | 0x15 => s.kickCmd c
  | 0x16 => s.offlineMap c
  | 0x18 => s.contextAction c
  | 0x19 => s.quiesce c
  | 0x1A => s.capture c
  | 0x1B => s.commit c
  | 0x1C => s.rollback c
  | 0x1D => s.assumeIdentity c
  | 0x1E => s.rebuild c
  | 0x20 => s.registerGroup c
  | 0x21 => s.deregisterGroup c
  | 0x22 => s.registerWindow c
  | 0x23 => s.deregisterWindow c
  | 0x24 => s.loadObject c
  | 0x25 => s.unloadObject c
  | 0x26 => s.install c
  | 0x27 => s.packageReset c
  | 0x28 => s.imageChange c
  | 0x30 => s.registerSpace c
  | 0x31 => s.tearDown c
  | 0x32 => s.invalidateCmd c
  | 0x33 => s.faultAnswer c
  | 0x34 => s.physicalWrite c
  | 0x35 => s.physicalRead c
  | n => s.unknownCmd n c

/-- What a command that had to wait does once it can go on; none while it cannot. -/
def State.goOn (s : State) (code : Nat) (c : Cmd) : Option State :=
  match code with
  | 0x13 => s.resumeNow c
  | 0x20 => s.groupCmd c
  | 0x21 => s.closeGroup c.op0
  | 0x24 => s.loadNow c
  | 0x26 => s.installNow c
  | 0x34 => s.physWriteNow c
  | 0x124 => s.beginNext c 0x24 fun s => s.loadNow c
  | 0x125 => s.beginNext c 0x25 fun s => some (s.unloadNow c)
  | 0x126 => s.beginNext c 0x26 fun s => s.installNow c
  | _ => none

/-! ## Register writes (R9, R10, R195) -/

def clampTo (lo hi v : Nat) : Nat := max lo (min hi v)

/-- Registers held per package that any port writes once the package is ready. -/
def State.writeShared (s : State) (off v : Nat) : State :=
  match off with
  | 0x40 => { s with mgmt := { s.mgmt with fog := clampTo 1000 60000000 (v % 2 ^ 26) } }
  | 0x58 => { s with mgmt := { s.mgmt with pwrcap := clampTo 1000 4600 (v % 2 ^ 16) } }
  | 0x60 => { s with mgmt := { s.mgmt with tlim := clampTo 70 105 (v % 2 ^ 8) } }
  | _ => s

/-- Registers held per port: the event ring, BRERR, the apertures. -/
def State.writePort (s : State) (port off v : Nat) : State :=
  let p := s.port port
  match off with
  | 0xC0 => if p.evtail = p.evhead then s.onPort port fun p => { p with evbase := v % 2 ^ 64 } else s
  | 0xC8 => if p.evtail = p.evhead then s.onPort port fun p => { p with evcap := v % 2 ^ 5 } else s
  | 0xD8 => s.evhead port (v % 2 ^ 32)
  | 0xE8 => if bit v 32 then s.brerrClear port else s
  | _ =>
    if 0x200 ≤ off && off < 0x400 then
      s.onPort port fun p =>
        { p with ap := p.ap.set ((off - 0x200) / 8) { v := bit v 0, pkg := fld v 1 3, asid := fld v 4 6, vbase := fld v 16 31 } }
    else s

/-- Queue registers: PRIO and TAIL, by the owner only (R178). -/
def State.writeQueue (s : State) (port off v : Nat) : State :=
  let n := (off - 0x1000) / 64
  let q := s.queue n
  match (off - 0x1000) % 64 with
  | 0 => if q.v && q.owner = port then s.onQueue n fun q => { q with prio := fld v 2 3 } else s
  | 24 => s.qtail port n (v % 2 ^ 32)
  | _ => s

/-- A write of 64 bits at an offset of a port's window of this package. -/
def State.windowWrite (s : State) (port off v : Nat) : State :=
  let op (f : Port → Port) : State := s.onPort port f
  if !s.portUp || off % 8 ≠ 0 then s
  else match off with
  | 0x00 =>
    let s1 := if bit v 2 then s.lampTake port else s
    if bit v 3 then s1.lampDrop port else s1
  | 0x08 =>
    let p := s.port port
    s.writeCmd (fld v 0 8) { port, queue := fld v 8 6, op0 := p.op0, op1 := p.op1, op2 := p.op2, op3 := p.op3 }
  | 0x10 => op fun p => { p with op0 := v % 2 ^ 64 }
  | 0x18 => op fun p => { p with op1 := v % 2 ^ 64 }
  | 0x20 => op fun p => { p with op2 := v % 2 ^ 64 }
  | 0x28 => op fun p => { p with op3 := v % 2 ^ 64 }
  | _ =>
    if 0x4000 ≤ off && off < 0x5000 then op fun p => { p with mailbox := p.mailbox.set ((off - 0x4000) / 8) (v % 2 ^ 64), spdm := none }
    else if s.mgmt.bootPhase ≠ 7 then s
    else if off < 0xC0 then s.writeShared off v
    else if off < 0x1000 then s.writePort port off v
    else if off < 0x2000 then s.writeQueue port off v
    else s

/-- A register write: at an offset below 64 KiB, in this package's window; from there on, at offset `off` - 64 KiB of BAR 0
of the head of the mooring, which holds the window of package p at 64 KiB × p: the write of another package's register
crosses the fabric in a packet of CLASS 0 (R391; that the event names both is the model's coding, log entry 55). -/
def State.regWrite (s : State) (port off v : Nat) : State :=
  if off < 2 ^ 16 then s.windowWrite port off v
  else
    let p := off / 2 ^ 16 - 1
    if 8 ≤ p then s
    else if p = Config.mooringIndex s.mgmt.image then s.windowWrite port (off % 2 ^ 16) v
    else if s.mgmt.bootPhase ≠ 7 || (s.port port).gone then s
    else s.queuePacket 0 0 (s.mooringAt p) false (.regWrite port (off % 2 ^ 16) v)

def execRegisterWrite (port off v : Nat) (s : State) : Out := .next (s.regWrite port off v)

/-- The oldest register write that has come across the fabric (R391). -/
def State.regNow (s : State) (port : Nat) : Option State :=
  match (s.port port).regq with
  | [] => none
  | (off, v) :: r => some ((s.onPort port fun p => { p with regq := r }).windowWrite port off v)

/-- What a port goes on with: its command, register writes, its apertures. -/
def State.hostTurn (s : State) (port : Nat) : Option State :=
  ((match (s.port port).running with | some (n, c) => s.goOn n c | none => none).orElse fun _ => s.regNow port).orElse
    fun _ => s.apNow port

/-! ## Register reads (R195) -/

/-- Registers of queue n. -/
def Queue.reg (q : Queue) (off : Nat) : Nat :=
  match off with
  | 0 => q.v.toNat + q.owner * 2 + q.prio * 2 ^ 2 + q.caplog * 2 ^ 5 + q.asid * 2 ^ 10
  | 8 => q.base
  | 16 => q.heada
  | 24 => q.tail.toNat
  | 32 => q.head.toNat
  | 40 => q.state + q.why * 2 ^ 4
  | _ => 0

/-- Words 0-3 of a window table entry (R80). -/
def Window.reg (w : Window) (i : Nat) : Nat :=
  match i with
  | 0 => w.v.toNat + w.puten.toNat * 2 + w.geten.toNat * 4 + w.asid * 2 ^ 8 + w.base
  | 1 => w.size
  | 2 => w.count
  | _ => w.rejects

/-- Registers of the checkpoint block (R367). -/
def Check.reg (k : Check) (off : Nat) : Nat :=
  match off with
  | 0x80 => k.cur % 2 ^ 32
  | 0x88 => k.committed + k.cslot * 2 ^ 32
  | 0x90 => k.pending + k.pslot * 2 ^ 32
  | 0x98 => k.phase + k.ready.toNat * 4 + k.disabled.toNat * 8 + k.rbreq.toNat * 16
  | _ => 0

def Aperture.reg (e : Aperture) : Nat := e.v.toNat + e.pkg * 2 + e.asid * 2 ^ 4 + e.vbase * 2 ^ 16

def Port.stat64 (p : Port) : Nat := p.busy.toNat + p.stat * 2 ^ 8 + p.code * 2 ^ 16 + p.doneN * 2 ^ 32

/-- Registers of a port (R393, R392). -/
def Port.reg (p : Port) (off : Nat) : Nat :=
  match off with
  | 0x10 => p.op0
  | 0x18 => p.op1
  | 0x20 => p.op2
  | 0x28 => p.op3
  | 0x30 => p.stat64
  | 0xC0 => p.evbase
  | 0xC8 => p.evcap
  | 0xD0 => p.evtail.toNat
  | 0xD8 => p.evhead.toNat
  | 0xE0 => p.evlost
  | 0xE8 => p.brerr
  | _ => if 0x200 ≤ off && off < 0x400 then (p.ap.get ((off - 0x200) / 8) {}).reg else 0

/-- The words of an answer in a port's mailbox, in the encoding of DMTF SPDM 1.3 (log entry 40); what the host has written
while there is none. -/
def Port.mail (p : Port) (i : Nat) : Nat :=
  match p.spdm with
  | some a => Config.spdmWord a.code a.carries i % 2 ^ 64
  | none => p.mailbox.get i 0

/-- The value that a read of 64 bits at an offset returns. TMAX and PWRNOW are readings: `n` numbers their free values; in
reset they hold their reset values. -/
def State.regRead (s : State) (port off n : Nat) : Nat :=
  match off with
  | 0x00 => s.lamp
  | 0x40 => s.mgmt.fog
  | 0x48 => Config.idrev % 2 ^ 32
  | 0x50 => s.mgmt.bootPhase + s.mgmt.recov.toNat * 2 ^ 3 + s.mgmt.bootErr * 2 ^ 4
  | 0x58 => s.mgmt.pwrcap
  | 0x60 => s.mgmt.tlim + s.hottest n * 2 ^ 8
  | 0x68 => if s.portUp then Config.power n % 2 ^ 16 else s.mgmt.pwrnow
  | _ =>
    if off % 8 ≠ 0 then 0
    else if 0x80 ≤ off && off < 0xA0 then s.ck.reg off
    else if off < 0x1000 then (s.port port).reg off
    else if off < 0x2000 then (s.queue ((off - 0x1000) / 64)).reg ((off - 0x1000) % 64)
    else if 0x4000 ≤ off && off < 0x5000 then (s.port port).mail ((off - 0x4000) / 8)
    else if 0x8000 ≤ off && off < 0x10000 then (s.window ((off - 0x8000) / 32)).reg ((off - 0x8000) % 32 / 8)
    else 0

end Sys2Proof.Machine
end

