-- ==== Sys2Proof/Machine/Riscv.lean ====
section
/-! DEFINITION. Helper and distributor cores as RISC-V harts (R328-R331, R337, R338): registers, exceptions, address maps,
the rows of the table that are base instructions, and the rest of the base, which R328 cites (log entry 26). -/

namespace Sys2Proof.Machine

/-! ## The hart in focus -/

/-- The helper that an agent is: its core, and whether it is the storer. -/
def Agent.helper? : Agent → Option (Nat × Bool)
  | .loader c => some (c, false)
  | .storer c => some (c, true)
  | _ => Option.none

/-- The distributor core that works: the relief after a hand-over. -/
def Die.dist (d : Die) : Dist := if d.role then d.relf else d.prim
def State.distCore (s : State) (d : Nat) : Dist := (s.die d).dist

def State.rv64 (s : State) : Bool := match s.focus with | .dist _ => true | _ => false
def State.xlen (s : State) : Nat := if s.rv64 then 64 else 32

/-- A register; x0 reads 0. -/
def State.x (s : State) (r : Nat) : Nat :=
  if r = 0 then 0
  else match s.focus with
    | .dist d => ((s.distCore d).x.get r 0).toNat
    | ag => match ag.helper? with
      | some (c, st) => ((s.helper c st).x.get r 0).toNat
      | none => 0

/-- Writes a register; a write of x0 is discarded. -/
def State.setX (s : State) (r v : Nat) : State :=
  if r = 0 then s
  else match s.focus with
    | .dist d => s.onDist d fun k => { k with x := k.x.set r (BitVec.ofNat 64 v) }
    | ag => match ag.helper? with
      | some (c, st) => s.onHelper c st fun h => { h with x := h.x.set r (BitVec.ofNat 32 v) }
      | none => s

def State.hpc (s : State) : Nat :=
  match s.focus with
  | .dist d => (s.distCore d).pc
  | ag => match ag.helper? with | some (c, st) => (s.helper c st).pc | none => 0

def State.setHpc (s : State) (pc : Nat) : State :=
  let pc := pc % 2 ^ s.xlen / 2 * 2
  match s.focus with
  | .dist d => s.onDist d fun k => { k with pc }
  | ag => match ag.helper? with
    | some (c, st) => s.onHelper c st fun h => { h with pc }
    | none => s

/-- The instruction cannot be completed now; the hart makes it again. -/
def State.hartWait (s : State) : State := { s with mark := .waits }

/-! ## Exceptions (R331, R338) -/

/-- mstatus at a trap: MPIE takes MIE, MIE falls, MPP is machine mode. -/
def mstatusIn (m : Word) : Word := BitVec.ofNat 64 (0x1800 + (if bit m.toNat 3 then 0x80 else 0))
/-- mstatus at MRET. -/
def mstatusOut (m : Word) : Word := BitVec.ofNat 64 (0x1880 + (if bit m.toNat 7 then 0x8 else 0))

/-- An exception of a distributor core: its handler, or hand-over when INTRAP is 1 already. -/
def State.distTrap (s : State) (d cause tval : Nat) : State :=
  if (s.die d).intrap then (if (s.die d).role then s.loseDist d cause else s.handOver d cause)
  else (s.onDie d fun k => { k with intrap := true }).onDist d fun k =>
    { k with mcause := cause, mepc := BitVec.ofNat 64 k.pc, mtval := BitVec.ofNat 64 tval, mstatus := mstatusIn k.mstatus
             pc := k.mtvec.toNat / 4 * 4 }

/-- An exception of a helper: it halts and posts a halt record. -/
def State.helperTrap (s : State) (c : Nat) (st : Bool) (cause tval : Nat) : State :=
  (s.onHelper c st fun h =>
    { h with running := false, halted := true, owes := true, mcause := cause, mepc := h.pc, mtval := tval }).postEvent (dieOf c) 5
    [BitVec.ofNat 64 (c % 20 + (if st then 5 else 4) * 32), BitVec.ofNat 64 cause, 0, 0]

/-- An exception of the hart in focus. -/
def State.hartTrap (s : State) (cause tval : Nat) : State :=
  match s.focus with
  | .dist d => { s.distTrap d cause tval with mark := .traps }
  | ag => match ag.helper? with
    | some (c, st) => { s.helperTrap c st cause tval with mark := .traps }
    | none => s

/-- The illegal-instruction exception. -/
def State.hartIllegal (s : State) : State := s.hartTrap 2 0

/-! ## Addresses (R329, R337) -/

/-- What a read of a hart gives. -/
inductive Mem
  | got (bs : List Byte) (s : State)
  | fault
  | wait (s : State)

/-- Registers of a die's register block: 64 bits at a multiple of 8; `held` is the number of port records that wait in the
die's event queue (R393). -/
def Die.regs (k : Die) (held off : Nat) : Nat :=
  let scan (i : Nat) : Nat :=
    let r := k.scan.get i {}
    r.pass + r.dirty.toNat * 2 ^ 24 + r.retired.toNat * 2 ^ 25 + r.scanning.toNat * 2 ^ 26 + r.dirtywin % 2 ^ 32 * 2 ^ 32
  let map (i : Nat) : Nat :=
    let m := k.lp.get i {}
    (m.l.zipIdx.map fun p => p.1 * 2 ^ (3 * p.2)).sum + m.relief * 2 ^ 12 + m.reduced.toNat * 2 ^ 15 + m.retmask * 2 ^ 16
  if off = 0 then k.jtail
  else if off = 8 then k.role.toNat + k.intrap.toNat * 2
  else if off = 0x10 then k.kicks.toNat
  else if off = 0x18 then k.evq.length + held
  else if off < 0x70 then k.bcnt.get ((off - 0x20) / 4) 0 + k.bcnt.get ((off - 0x20) / 4 + 1) 0 * 2 ^ 32
  else if 0x80 ≤ off && off < 0xA8 then map ((off - 0x80) / 8)
  else if 0xC0 ≤ off && off < 0x188 then scan ((off - 0xC0) / 8)
  else if off = 0x200 then k.amoAddr.toNat
  else if off = 0x208 then k.amoOld.toNat
  else if off = 0x210 then k.amoJseq
  else 0

/-- Bytes of the register block, which takes 4 KiB of the local space. -/
def Die.regBytes (k : Die) (held off n : Nat) : List Byte :=
  (List.range n).map fun i => BitVec.ofNat 8 (k.regs held ((off + i) / 8 * 8) / 2 ^ (8 * ((off + i) % 8)))

/-- Where a distributor address leads. -/
inductive DSpot
  | va (a : Nat)
  | phys (pa : Nat)
  | imem (off : Nat)
  | journal (off : Nat)
  | regs (off : Nat)
  | none

/-- R337: every byte of [a, a + n) in one range; a physical address is one of device memory (R18, R78). -/
def distSpot (a n : Nat) : DSpot :=
  let off := a % 2 ^ 56
  match a / 2 ^ 56 with
  | 0 => if off + n ≤ 2 ^ 56 then .va off else .none
  | 0x40 => if fld a 48 8 = 0 then .phys (a % 2 ^ 48) else .none
  | 0x80 =>
    if off + n ≤ 2 ^ 18 then .imem off
    else if 0x1000000 ≤ off && off + n ≤ 0x1100000 then .journal (off - 0x1000000)
    else if 0x2000000 ≤ off && off + n ≤ 0x2001000 then .regs (off - 0x2000000)
    else .none
  | _ => .none

/-- A read of translated space by an agent of its own accord: declined or poisoned data is an access fault (R331). -/
def State.vaRead (s : State) (ag : Agent) (asid : Nat) (kind : AccKind) (va n : Nat) : Mem :=
  match s.readNow { agent := ag, kind, asid } va n with
  | .blocked s' => .wait s'
  | .ready bs => if gotPoison bs then .fault else .got (bs.map (·.1)) s

def State.physGot (s : State) (pa n : Nat) : Mem :=
  if !s.paOk pa n then .fault
  else if (s.physRead pa n).any (·.2) then .fault else .got ((s.physRead pa n).map (·.1)) s

/-- R329: a helper's read; the instruction store is for fetches only. -/
def State.helperRead (s : State) (c : Nat) (st : Bool) (kind : AccKind) (a n : Nat) : Mem :=
  let h := s.helper c st
  if a + n ≤ 0x8000 then (if kind = .fetch then .got (s.bytes (istoreKey c st.toNat a) n) s else .fault)
  else if 0x10000 ≤ a && a + n ≤ 0x14000 then .got (s.bytes (dstoreKey c st.toNat (a - 0x10000)) n) s
  else if 2 ^ 31 ≤ a && a + n ≤ 2 ^ 32 then s.vaRead s.focus h.asid kind (h.xbase * 2 ^ 31 + a % 2 ^ 31) n
  else .fault

def State.distRead (s : State) (d : Nat) (kind : AccKind) (a n : Nat) : Mem :=
  match distSpot a n with
  | .va va => s.vaRead (.dist d) (s.distCore d).asid kind va n
  | .phys pa => s.physGot pa n
  | .imem off => .got (s.bytes (imemKey d (s.die d).role.toNat off) n) s
  | .journal off => .got (s.bytes (journalKey d off) n) s
  | .regs off => .got ((s.die d).regBytes (s.heldRecs d) off n) s
  | .none => .fault

/-- A read of the hart in focus. -/
def State.hartRead (s : State) (kind : AccKind) (a n : Nat) : Mem :=
  match s.focus with
  | .dist d => s.distRead d kind a n
  | ag => match ag.helper? with
    | some (c, st) => s.helperRead c st kind a n
    | none => .fault

/-- What a store did. -/
inductive Put
  | done (s : State)
  | fault
  | wait (s : State)

/-- A store of an integer to translated space (R24); a declined one sets `flag`. `key` and `step` are those of the
context served; its saturations go to `sats`. -/
def State.vaWrite (s : State) (ag : Agent) (asid va n v : Nat) (key : Word) (step : BitVec 32) (flag : State → State)
    (sats : Nat → State → State) : Put :=
  match s.ask { agent := ag, kind := .store, asid } 0 [] key step
      [.elem va 0 (sx (v : Nat) (8 * n)) (8 * n) false false 0 0 false] none with
  | .still => .wait s
  | .went s1 => .wait s1
  | .got p _ s1 => .done (sats p.sat (if p.declined.isEmpty then s1 else flag s1))

/-- R329: a helper's store. -/
def State.helperWrite (s : State) (c : Nat) (st : Bool) (a n v : Nat) : Put :=
  let h := s.helper c st
  if 0x10000 ≤ a && a + n ≤ 0x14000 then .done (s.poke (dstoreKey c st.toNat (a - 0x10000)) (leBytes n v))
  else if 2 ^ 31 ≤ a && a + n ≤ 2 ^ 32 then
    let k := s.ctx c h.ctx
    s.vaWrite s.focus h.asid (h.xbase * 2 ^ 31 + a % 2 ^ 31) n v k.rngkey k.rngstep
      (fun s => s.onHelper c st fun h => { h with decl := true }) fun m s => s.onCtx c h.ctx fun k => k.count m
  else .fault

/-- A write of the register block: INTRAP and HACT (R337, R352). -/
def State.regStore (s : State) (d off n v : Nat) : State :=
  if off ≤ 8 && 8 < off + n then s.onDie d fun k => { k with intrap := bit (v / 2 ^ (8 * (8 - off))) 1 }
  else if off = 0x1C0 && fld v 0 5 < 20 then
    match fld v 7 2 with
    | 1 => s.hact (20 * d + fld v 0 5) (fld v 5 2) false
    | 2 => s.hact (20 * d + fld v 0 5) (fld v 5 2) true
    | _ => s
  else s

def State.distWrite (s : State) (d : Nat) (a n v : Nat) : Put :=
  let flag (s : State) : State := s.onDist d fun k => { k with decl := true }
  match distSpot a n with
  | .va va => s.vaWrite (.dist d) (s.distCore d).asid va n v 0 0 flag fun _ s => s
  | .phys pa =>
    if !s.paOk pa n then .fault
    else if !s.physRoom d pa n then .wait s
    else
      let r := s.physWrite d pa (leBytes n v)
      .done (if r.2 then flag r.1 else r.1)
  | .imem _ => .fault
  | .journal off => .done ((s.poke (journalKey d off) (leBytes n v)).breakResv (journalKey d off) n)
  | .regs off => .done (s.regStore d off n v)
  | .none => .fault

def State.hartWrite (s : State) (a n v : Nat) : Put :=
  match s.focus with
  | .dist d => s.distWrite d a n v
  | ag => match ag.helper? with
    | some (c, st) => s.helperWrite c st a n v
    | none => .fault

/-- Goes on with what was read, waits, or takes a load access fault. -/
def State.withRead (s : State) (a n : Nat) (go : List Byte → State → State) : State :=
  match s.hartRead .load a n with
  | .got bs s' => go bs s'
  | .fault => s.hartTrap 5 a
  | .wait s' => s'.hartWait

/-! ## The rows that are base instructions (R130, R331, R430) -/

def rvBytes : RvLoad → Nat
  | .lb => 1 | .lh => 2 | .lw => 4 | .ld => 8 | .lbu => 1 | .lhu => 2 | .lwu => 4

def rvSigned : RvLoad → Bool
  | .lbu => false | .lhu => false | .lwu => false | _ => true

/-- An address of the hart: base and offset, modulo its width. -/
def State.hartAddr (s : State) (r : Nat) (imm : Int) : Nat := (((s.x r : Int) + imm) % 2 ^ s.xlen).toNat

def execRiscvLoad (z : RvLoad) (i : IType) (s : State) : Out :=
  .next (s.withRead (s.hartAddr i.rs1 i.imm) (rvBytes z) fun bs s =>
    let v := leNat bs
    s.setX i.rd (if rvSigned z then zx (sx (v : Nat) (8 * (rvBytes z))) s.xlen else v))

def execRiscvStore (z : MemSize) (i : SType) (s : State) : Out :=
  let a := s.hartAddr i.rs1 i.imm
  .next (match s.hartWrite a (mBytes z) (s.x i.rs2 % 2 ^ (8 * mBytes z)) with
    | .done s' => s'
    | .fault => s.hartTrap 7 a
    | .wait s' => s'.hartWait)

/-- The operation of an AMO and whether it compares unsigned. -/
def amoOp : RvAmo → AtomOp × Bool
  | .swap => (.swap, false) | .add => (.add, false) | .xor => (.xor, false) | .and => (.and, false) | .or => (.or, false)
  | .min => (.min, false) | .max => (.max, false) | .minu => (.min, true) | .maxu => (.max, true)

/-- An AMO's old value reaches rd, and the register block notes it (R430). -/
def State.amoDone (s : State) (d a rd n old : Nat) : State :=
  let v := zx (sx (old : Nat) (8 * n)) 64
  (s.onDie d fun k => { k with amoAddr := BitVec.ofNat 64 a, amoOld := BitVec.ofNat 64 v, amoJseq := k.jtail }).setX rd v

/-- An AMO of n bytes at a distributor address; declined or misaligned it raises a store access fault. -/
def State.distAmo (s : State) (d a rd n : Nat) (op : AtomOp) (u : Bool) (x : Nat) : State :=
  let local_ (old : List Byte) (put : State → Nat → State) : State :=
    if a % n ≠ 0 then s.hartTrap 7 a
    else (put s ((atomNew op u (8 * n) (leNat old) (x % 2 ^ (8 * n)) none).getD 0)).amoDone d a rd n (leNat old)
  match distSpot a n with
  | .va va =>
    match s.ask { agent := .dist d, kind := .atomic, asid := (s.distCore d).asid } 0 [] 0 0 [.read va n]
        (some (op, n, u, x, none)) with
    | .still => s.hartWait
    | .went s1 => s1.hartWait
    | .got p _ s1 => if p.poisoned then s1.hartTrap 7 a else s1.amoDone d a rd n (gotNat p.data.flatten)
  | .phys pa =>
    if pa % n ≠ 0 then s.hartTrap 7 a
    else if !s.physRoom d pa n then s.hartWait
    else match s.physGot pa n with
      | .got bs s =>
        let old := leNat bs
        let v := (atomNew op u (8 * n) old (x % 2 ^ (8 * n)) none).getD old
        let r := s.physWrite d pa (leBytes n v)
        if r.2 then r.1.hartTrap 7 a else r.1.amoDone d a rd n old
      | _ => s.hartTrap 7 a
  | .journal off => local_ (s.bytes (journalKey d off) n) fun s v => s.poke (journalKey d off) (leBytes n v)
  | .regs off => local_ ((s.die d).regBytes (s.heldRecs d) off n) fun s v => s.regStore d off n v
  | _ => s.hartTrap 7 a

def execRiscvAmo (op : RvAmo) (dbl _aq _rl : Bool) (r : RType) (s : State) : Out :=
  .next (match s.focus with
    | .dist d => s.distAmo d (s.x r.rs1) r.rd (if dbl then 8 else 4) (amoOp op).1 (amoOp op).2 (s.x r.rs2)
    | _ => s.hartIllegal)

/-- A helper consumes its declined flag: a store access fault when it is set (R331). -/
def State.eatFlag (s : State) (go : State → State) : State :=
  match s.focus.helper? with
  | some (c, st) =>
    if (s.helper c st).decl then (s.onHelper c st fun h => { h with decl := false }).hartTrap 7 0 else go s
  | none => go s

/-- Whether requests of the hart are still under way: its own accesses are complete when its instructions are, so a
FENCE has only the flag to consume. -/
def execRiscvFence (_fm _pred _succ : Nat) (s : State) : Out := .next (s.eatFlag id)

/-- What raises the machine external interrupt of a die: records not taken, and kicks (R328, R344). -/
def Die.extPending (k : Die) : Bool := !k.untaken.isEmpty || k.kicks ≠ 0

/-- WFI: the core goes on once a record or a kick is there; a helper has no interrupts and goes on. -/
def execWfi (s : State) : Out :=
  .next (match s.focus with
    | .dist d =>
      if (s.die d).extPending then s.onDist d fun k => { k with wfi := false }
      else (s.onDist d fun k => { k with wfi := true }).hartWait
    | _ => s)

/-! ## The rest of the base (R328) -/

/-- Control and status registers. -/
def State.hartCsr (s : State) (n : Nat) : Option Nat :=
  match s.focus with
  | .dist d =>
    let k := s.distCore d
    match n with
    | 0x300 => some (k.mstatus.toNat ||| 0x1800)
    | 0x301 => some (2 ^ 63 + 0x801105)
    | 0x304 => some k.mie.toNat
    | 0x305 => some k.mtvec.toNat
    | 0x340 => some k.mscratch.toNat
    | 0x341 => some k.mepc.toNat
    | 0x342 => some k.mcause
    | 0x343 => some k.mtval.toNat
    | 0x344 => some (if (s.die d).extPending then 2 ^ 11 else 0)
    | 0xB00 => some (k.mcycle % 2 ^ 64)
    | 0xB02 => some (k.minstret % 2 ^ 64)
    | 0xF11 => some 0
    | 0xF12 => some 0
    | 0xF13 => some 0
    | 0xF14 => some (2 * d + (s.die d).role.toNat)
    | 0xF15 => some 0
    | _ => if (0xB03 ≤ n && n ≤ 0xB1F) || (0x323 ≤ n && n ≤ 0x33F) then some 0 else none
  | ag =>
    match ag.helper? with
    | some (c, st) =>
      let h := s.helper c st
      match n with
      | 0x341 => some h.mepc
      | 0x342 => some h.mcause
      | 0x343 => some h.mtval
      | 0xB00 => some (h.mcycle % 2 ^ 32)
      | 0xB02 => some (h.minstret % 2 ^ 32)
      | 0xB80 => some (h.mcycle / 2 ^ 32 % 2 ^ 32)
      | 0xB82 => some (h.minstret / 2 ^ 32 % 2 ^ 32)
      | _ => none
    | none => none

/-- A counter with its low or high 32 bits replaced. -/
def setHalf (old v : Nat) (hi : Bool) : Nat := if hi then old % 2 ^ 32 + v * 2 ^ 32 else old / 2 ^ 32 * 2 ^ 32 + v % 2 ^ 32

/-- What minstret holds so that the written value stands after the instruction: a write takes the place of the increment. -/
def beforeTick (v : Nat) : Nat := (v + 2 ^ 64 - 1) % 2 ^ 64

def Dist.setCsr (k : Dist) (n v : Nat) : Dist :=
  let w := BitVec.ofNat 64 v
  match n with
  | 0x300 => { k with mstatus := BitVec.ofNat 64 (0x1800 + (v &&& 0x88)) }
  | 0x304 => { k with mie := BitVec.ofNat 64 (v &&& 0x800) }
  | 0x305 => { k with mtvec := BitVec.ofNat 64 (v / 4 * 4 + v % 2) }
  | 0x340 => { k with mscratch := w }
  | 0x341 => { k with mepc := BitVec.ofNat 64 (v / 2 * 2) }
  | 0x342 => { k with mcause := v }
  | 0x343 => { k with mtval := w }
  | 0xB00 => { k with mcycle := v }
  | 0xB02 => { k with minstret := beforeTick v }
  | _ => k

def Helper.setCsr (h : Helper) (n v : Nat) : Helper :=
  match n with
  | 0x341 => { h with mepc := v / 2 * 2 }
  | 0x342 => { h with mcause := v }
  | 0x343 => { h with mtval := v }
  | 0xB00 => { h with mcycle := setHalf h.mcycle v false }
  | 0xB02 => { h with minstret := beforeTick (setHalf h.minstret v false) }
  | 0xB80 => { h with mcycle := setHalf h.mcycle v true }
  | 0xB82 => { h with minstret := beforeTick (setHalf h.minstret v true) }
  | _ => h

def State.setHartCsr (s : State) (n v : Nat) : State :=
  match s.focus with
  | .dist d => s.onDist d fun k => k.setCsr n v
  | ag => match ag.helper? with
    | some (c, st) => s.onHelper c st fun h => h.setCsr n v
    | none => s

/-- CSRRW, CSRRS, CSRRC and their immediate forms. -/
def State.csrOp (s : State) (w : Nat) : State :=
  let n := fld w 20 12
  let f := fld w 12 3
  let r := fld w 15 5
  let writes := f % 4 = 1 || r ≠ 0
  match s.hartCsr n with
  | none => s.hartIllegal
  | some old =>
    if writes && n / 2 ^ 10 = 3 then s.hartIllegal
    else
      let src := if f < 4 then s.x r else r
      let new := match f % 4 with
        | 1 => src
        | 2 => old ||| src
        | _ => old - (old &&& src)
      (if writes then s.setHartCsr n new else s).setX (fld w 7 5) old

/-- Shifts, comparisons and logic of OP and OP-IMM on values of `n` bits; `alt` is bit 30. -/
def alu (n f : Nat) (alt : Bool) (a b : Nat) : Nat :=
  let sa := b % n
  match f with
  | 0 => if alt then (a + 2 ^ n - b % 2 ^ n) % 2 ^ n else (a + b) % 2 ^ n
  | 1 => a * 2 ^ sa % 2 ^ n
  | 2 => if sx (a : Nat) n < sx (b : Nat) n then 1 else 0
  | 3 => if a < b then 1 else 0
  | 4 => a ^^^ b
  | 5 => if alt then zx (sx (a : Nat) n / 2 ^ sa) n else a / 2 ^ sa
  | 6 => a ||| b
  | _ => a &&& b

/-- The M extension on values of `n` bits. -/
def mulDiv (n f a b : Nat) : Nat :=
  let x := sx (a : Nat) n
  let y := sx (b : Nat) n
  match f with
  | 0 => a * b % 2 ^ n
  | 1 => zx (x * y / 2 ^ n) n
  | 2 => zx (x * b / 2 ^ n) n
  | 3 => a * b / 2 ^ n
  | 4 => if b = 0 then 2 ^ n - 1 else zx (x.tdiv y) n
  | 5 => if b = 0 then 2 ^ n - 1 else a / b
  | 6 => if b = 0 then a else zx (x.tmod y) n
  | _ => if b = 0 then a else a % b

def immI (w : Nat) : Int := sx (fld w 20 12 : Nat) 12
def immB (w : Nat) : Int := sx (fld w 8 4 * 2 + fld w 25 6 * 2 ^ 5 + fld w 7 1 * 2 ^ 11 + fld w 31 1 * 2 ^ 12 : Nat) 13
def immJ (w : Nat) : Int := sx (fld w 21 10 * 2 + fld w 20 1 * 2 ^ 11 + fld w 12 8 * 2 ^ 12 + fld w 31 1 * 2 ^ 20 : Nat) 21
def immU (w : Nat) : Int := sx (fld w 12 20 * 2 ^ 12 : Nat) 32

/-- Whether a branch is taken; none for an undefined condition. -/
def branchTaken (n f a b : Nat) : Option Bool :=
  match f with
  | 0 => some (decide (a = b))
  | 1 => some (decide (a ≠ b))
  | 4 => some (decide (sx (a : Nat) n < sx (b : Nat) n))
  | 5 => some (decide (sx (b : Nat) n ≤ sx (a : Nat) n))
  | 6 => some (decide (a < b))
  | 7 => some (decide (b ≤ a))
  | _ => none

/-- Register-immediate arithmetic on `n` bits: the value, or none when illegal. -/
def opImm (n w a : Nat) : Option Nat :=
  let f := fld w 12 3
  let b := zx (immI w) n
  let sh := if n = 64 then fld w 20 6 else fld w 20 5
  let hi := if n = 64 then fld w 26 6 * 2 else fld w 25 7
  match f with
  | 1 => if hi = 0 then some (alu n 1 false a sh) else none
  | 5 => if hi = 0 then some (alu n 5 false a sh) else if hi = 0x20 then some (alu n 5 true a sh) else none
  | _ => some (alu n f false a b)

/-- Register-register arithmetic on `n` bits. -/
def opReg (n w a b : Nat) : Option Nat :=
  let f := fld w 12 3
  match fld w 25 7 with
  | 0 => some (alu n f false a b)
  | 0x20 => if f = 0 || f = 5 then some (alu n f true a b) else none
  | 1 => some (mulDiv n f a b)
  | _ => none

/-- A result of `n` bits in rd, sign-extended to the register, or the illegal-instruction exception. -/
def State.putOr (s : State) (rd n : Nat) : Option Nat → State
  | some v => s.setX rd (zx (sx (v : Nat) n) s.xlen)
  | none => s.hartIllegal

/-- The key of the location at a distributor's address: what a reservation covers. -/
def State.resvKey (s : State) (d a n : Nat) : Nat :=
  match distSpot a n with
  | .va va =>
    match s.place { agent := .dist d, kind := .load, asid := (s.distCore d).asid } va n .raw 0 [] with
    | .at k _ => k
    | _ => 2 ^ 100
  | .phys pa => physKey pa
  | .journal off => journalKey d off
  | _ => 2 ^ 100

/-- LR reserves what it reads. -/
def State.loadReserved (s : State) (d a rd n : Nat) : State :=
  s.withRead a n fun bs s =>
    (s.onDist d fun k => { k with resv := some (a, n, s.resvKey d a n) }).setX rd (zx (sx (leNat bs : Nat) (8 * n)) 64)

/-- SC writes while its own reservation stands, which any store to the location breaks; one whose write is under way goes on
with it. -/
def State.storeConditional (s : State) (d a rd n v : Nat) : State :=
  let under := (s.result? (.dist d) 0).isSome || s.owes (.dist d) 0
  let holds := match (s.distCore d).resv with | some (b, m, _) => b = a && m = n | none => false
  let s1 := s.onDist d fun k => { k with resv := none }
  if under || holds then
    match s.hartWrite a n v with
    | .done s' => (s'.onDist d fun k => { k with resv := none }).setX rd 0
    | .fault => s1.hartTrap 7 a
    | .wait s' => s'.hartWait
  else s1.setX rd 1

/-- LR and SC of a distributor (log entry 26). -/
def State.lrsc (s : State) (w : Nat) : State :=
  match s.focus with
  | .dist d =>
    let n := if fld w 12 3 = 3 then 8 else 4
    let a := s.x (fld w 15 5)
    if fld w 27 5 = 2 && fld w 20 5 ≠ 0 then s.hartIllegal
    else if a % n ≠ 0 then s.hartTrap (if fld w 27 5 = 2 then 4 else 6) a
    else if fld w 27 5 = 2 then s.loadReserved d a (fld w 7 5) n
    else s.storeConditional d a (fld w 7 5) n (s.x (fld w 20 5) % 2 ^ (8 * n))
  | _ => s.hartIllegal

/-- SYSTEM: ECALL, EBREAK, MRET, WFI, the CSR instructions. -/
def State.system (s : State) (w : Nat) : State × Option Nat :=
  if fld w 12 3 = 0 then
    if w = 0x73 then (s.hartTrap 11 0, none)
    else if w = 0x100073 then (s.hartTrap 3 s.hpc, none)
    else if w = 0x30200073 then
      match s.focus with
      | .dist d =>
        (s.onDist d fun k => { k with mstatus := mstatusOut k.mstatus }, some (s.distCore d).mepc.toNat)
      | _ => (s.hartIllegal, none)
    else (s.hartIllegal, none)
  else if fld w 12 3 = 4 then (s.hartIllegal, none)
  else (s.csrOp w, none)

/-- A word of the base that is no row of the table: the state and where it goes on, when not at the next instruction. -/
def State.rvBase (s : State) (w len : Nat) : State × Option Nat :=
  let n := s.xlen
  let rd := fld w 7 5
  let a := s.x (fld w 15 5)
  let b := s.x (fld w 20 5)
  let pc := s.hpc
  let goto (off : Int) : Option Nat := some (zx ((pc : Int) + off) n)
  match fld w 0 7 with
  | 0x37 => (s.setX rd (zx (immU w) n), none)
  | 0x17 => (s.setX rd (zx ((pc : Int) + immU w) n), none)
  | 0x6F => (s.setX rd ((pc + len) % 2 ^ n), goto (immJ w))
  | 0x67 =>
    if fld w 12 3 = 0 then (s.setX rd ((pc + len) % 2 ^ n), some (zx ((a : Int) + immI w) n / 2 * 2)) else (s.hartIllegal, none)
  | 0x63 =>
    match branchTaken n (fld w 12 3) a b with
    | some t => (s, if t then goto (immB w) else none)
    | none => (s.hartIllegal, none)
  | 0x13 => (s.putOr rd n (opImm n w a), none)
  | 0x33 => (s.putOr rd n (opReg n w a b), none)
  | 0x1B =>
    let f := fld w 12 3
    (s.putOr rd 32 (if n = 64 && (f = 0 || f = 1 || f = 5) && fld w 25 1 * f = 0 then opImm 32 w (a % 2 ^ 32) else none), none)
  | 0x3B =>
    let f := fld w 12 3
    let m := fld w 25 7 = 1
    (s.putOr rd 32 (if n = 64 && (if m then f = 0 || 4 ≤ f else f = 0 || f = 1 || f = 5) then
      opReg 32 w (a % 2 ^ 32) (b % 2 ^ 32) else none), none)
  | 0x2F => (s.lrsc w, none)
  | 0x73 => s.system w
  | _ => (s.hartIllegal, none)

/-! ## Compressed words (R328) -/

def encI (op f rd rs imm : Nat) : Nat := op + rd * 2 ^ 7 + f * 2 ^ 12 + rs * 2 ^ 15 + imm % 2 ^ 12 * 2 ^ 20
def encR (op f hi rd rs rt : Nat) : Nat := op + rd * 2 ^ 7 + f * 2 ^ 12 + rs * 2 ^ 15 + rt * 2 ^ 20 + hi * 2 ^ 25
def encS (op f rs rt imm : Nat) : Nat :=
  op + imm % 32 * 2 ^ 7 + f * 2 ^ 12 + rs * 2 ^ 15 + rt * 2 ^ 20 + imm / 32 % 128 * 2 ^ 25
def encB (f rs rt : Nat) (off : Int) : Nat :=
  let o := zx off 13
  0x63 + fld o 11 1 * 2 ^ 7 + fld o 1 4 * 2 ^ 8 + f * 2 ^ 12 + rs * 2 ^ 15 + rt * 2 ^ 20 + fld o 5 6 * 2 ^ 25 + fld o 12 1 * 2 ^ 31
def encJ (rd : Nat) (off : Int) : Nat :=
  let o := zx off 21
  0x6F + rd * 2 ^ 7 + fld o 12 8 * 2 ^ 12 + fld o 11 1 * 2 ^ 20 + fld o 1 10 * 2 ^ 21 + fld o 20 1 * 2 ^ 31

/-- The signed 6-bit immediate of CI formats. -/
def ciImm (h : Nat) : Int := sx (fld h 2 5 + fld h 12 1 * 32 : Nat) 6
/-- The offset of C.J and C.JAL. -/
def cjOff (h : Nat) : Int :=
  sx (fld h 3 3 * 2 + fld h 11 1 * 16 + fld h 2 1 * 32 + fld h 7 1 * 64 + fld h 6 1 * 128 + fld h 9 2 * 256 + fld h 8 1 * 1024 +
    fld h 12 1 * 2048 : Nat) 12
/-- The offset of C.BEQZ and C.BNEZ. -/
def cbOff (h : Nat) : Int :=
  sx (fld h 3 2 * 2 + fld h 10 2 * 8 + fld h 2 1 * 32 + fld h 5 2 * 64 + fld h 12 1 * 256 : Nat) 9

/-- Quadrant 0. -/
def expand0 (rv64 : Bool) (h : Nat) : Option Nat :=
  let rd := fld h 2 3 + 8
  let rs := fld h 7 3 + 8
  let offW := fld h 6 1 * 4 + fld h 10 3 * 8 + fld h 5 1 * 64
  let offD := fld h 10 3 * 8 + fld h 5 2 * 64
  match fld h 13 3 with
  | 0 =>
    let imm := fld h 6 1 * 4 + fld h 5 1 * 8 + fld h 11 2 * 16 + fld h 7 4 * 64
    if imm = 0 then none else some (encI 0x13 0 rd 2 imm)
  | 2 => some (encI 0x03 2 rd rs offW)
  | 3 => if rv64 then some (encI 0x03 3 rd rs offD) else none
  | 6 => some (encS 0x23 2 rs rd offW)
  | 7 => if rv64 then some (encS 0x23 3 rs rd offD) else none
  | _ => none

/-- The arithmetic group of quadrant 1. -/
def expandAlu (rv64 : Bool) (h : Nat) : Option Nat :=
  let rd := fld h 7 3 + 8
  let rt := fld h 2 3 + 8
  let sh := fld h 2 5 + fld h 12 1 * 32
  match fld h 10 2 with
  | 0 => if rv64 || sh < 32 then some (encI 0x13 5 rd rd sh) else none
  | 1 => if rv64 || sh < 32 then some (encI 0x13 5 rd rd (sh + 0x400)) else none
  | 2 => some (encI 0x13 7 rd rd (zx (ciImm h) 12))
  | _ =>
    match fld h 12 1, fld h 5 2 with
    | 0, 0 => some (encR 0x33 0 0x20 rd rd rt)
    | 0, 1 => some (encR 0x33 4 0 rd rd rt)
    | 0, 2 => some (encR 0x33 6 0 rd rd rt)
    | 0, _ => some (encR 0x33 7 0 rd rd rt)
    | _, 0 => if rv64 then some (encR 0x3B 0 0x20 rd rd rt) else none
    | _, 1 => if rv64 then some (encR 0x3B 0 0 rd rd rt) else none
    | _, _ => none

/-- Quadrant 1. -/
def expand1 (rv64 : Bool) (h : Nat) : Option Nat :=
  let rd := fld h 7 5
  let imm := zx (ciImm h) 12
  match fld h 13 3 with
  | 0 => some (encI 0x13 0 rd rd imm)
  | 1 => if rv64 then (if rd = 0 then none else some (encI 0x1B 0 rd rd imm)) else some (encJ 1 (cjOff h))
  | 2 => some (encI 0x13 0 rd 0 imm)
  | 3 =>
    if rd = 2 then
      let o := sx (fld h 6 1 * 16 + fld h 2 1 * 32 + fld h 5 1 * 64 + fld h 3 2 * 128 + fld h 12 1 * 512 : Nat) 10
      if o = 0 then none else some (encI 0x13 0 2 2 (zx o 12))
    else if ciImm h = 0 then none else some (0x37 + rd * 2 ^ 7 + zx (ciImm h) 20 * 2 ^ 12)
  | 4 => expandAlu rv64 h
  | 5 => some (encJ 0 (cjOff h))
  | 6 => some (encB 0 (fld h 7 3 + 8) 0 (cbOff h))
  | _ => some (encB 1 (fld h 7 3 + 8) 0 (cbOff h))

/-- Quadrant 2. -/
def expand2 (rv64 : Bool) (h : Nat) : Option Nat :=
  let rd := fld h 7 5
  let rt := fld h 2 5
  let sh := rt + fld h 12 1 * 32
  match fld h 13 3 with
  | 0 => if rv64 || sh < 32 then some (encI 0x13 1 rd rd sh) else none
  | 2 => if rd = 0 then none else some (encI 0x03 2 rd 2 (fld h 4 3 * 4 + fld h 12 1 * 32 + fld h 2 2 * 64))
  | 3 => if rd = 0 || !rv64 then none else some (encI 0x03 3 rd 2 (fld h 5 2 * 8 + fld h 12 1 * 32 + fld h 2 3 * 64))
  | 4 =>
    if rt = 0 then
      if rd = 0 then (if fld h 12 1 = 1 then some 0x100073 else none) else some (encI 0x67 0 (fld h 12 1) rd 0)
    else some (encR 0x33 0 0 rd (if fld h 12 1 = 1 then rd else 0) rt)
  | 6 => some (encS 0x23 2 2 rt (fld h 9 4 * 4 + fld h 7 2 * 64))
  | 7 => if rv64 then some (encS 0x23 3 2 rt (fld h 10 3 * 8 + fld h 7 3 * 64)) else none
  | _ => none

/-- The 32-bit word that a compressed word stands for; none when it is illegal. -/
def expandC (rv64 : Bool) (h : Nat) : Option Nat :=
  match h % 4 with
  | 0 => expand0 rv64 h
  | 1 => expand1 rv64 h
  | 2 => expand2 rv64 h
  | _ => none

/-! ## One instruction of a hart -/

/-- The clock and, for a completed instruction, the count of the hart in focus. -/
def State.tick (s : State) (retired : Bool) : State :=
  match s.focus with
  | .dist d => s.onDist d fun k => { k with mcycle := k.mcycle + 1, minstret := k.minstret + retired.toNat }
  | ag => match ag.helper? with
    | some (c, st) => s.onHelper c st fun h => { h with mcycle := h.mcycle + 1, minstret := h.minstret + retired.toNat }
    | none => s

/-- The end of an instruction of `len` bytes: the next one, or the one at `goal`, unless it waits or has trapped. -/
def State.hartEnd (s : State) (pc len : Nat) (goal : Option Nat) : State :=
  let done := s.mark = .clean
  let s1 := if s.mark = .waits then s else s.forget s.focus
  ({ (if done then s1.setHpc (goal.getD (pc + len)) else s1) with mark := .clean }).tick done

/-- The fetched word of the hart in focus: its 32-bit form and its length. -/
inductive HFetch
  | word (w len : Nat) (s : State)
  | illegal (h : Nat)
  | fault (a : Nat)
  | wait (s : State)

def State.hartFetch (s : State) : HFetch :=
  let pc := s.hpc
  match s.hartRead .fetch pc 2 with
  | .fault => .fault pc
  | .wait s' => .wait s'
  | .got lo s1 =>
    let h := leNat lo
    if h % 4 = 3 then
      match s1.hartRead .fetch (pc + 2) 2 with
      | .fault => .fault (pc + 2)
      | .wait s' => .wait s'
      | .got hi s2 => .word (h + leNat hi * 2 ^ 16) 4 s2
    else match expandC s.rv64 h with
      | some w => .word w 2 s1
      | none => .illegal h

/-- A machine external interrupt of a distributor: enabled, pending, and taken between instructions, not within one that
waits for an access. A WFI that it ends has completed: mepc is the next instruction. -/
def State.interrupt (s : State) (d : Nat) : Option State :=
  let k := s.distCore d
  if (s.die d).extPending && bit k.mie.toNat 11 && bit k.mstatus.toNat 3 && !s.awaits (.dist d) then
    some (s.onDist d fun k =>
      { k with mcause := 2 ^ 63 + 11, mepc := BitVec.ofNat 64 (if k.wfi then k.pc + 4 else k.pc), mtval := 0
               mstatus := mstatusIn k.mstatus
               pc := k.mtvec.toNat / 4 * 4 + (if k.mtvec.toNat % 2 = 1 then 44 else 0), wfi := false })
  else none

/-- Decodes a word for the hart in focus. -/
def State.hartDecode (s : State) (w : Nat) : Except Reject Instr := if s.rv64 then decodeDist w else decodeHelper w

/-- Whether a rejected word is one of the base. -/
def isBaseWord : Reject → Bool
  | .base => true
  | _ => false

/-- One instruction of the hart in focus; `ex` is the meaning of a row of the table. -/
def State.hartStep (ex : Instr → State → Out) (s : State) : Out :=
  let pc := s.hpc
  match (match s.focus with | .dist d => s.interrupt d | _ => none) with
  | some s' => .next s'
  | none =>
    match s.hartFetch with
    | .wait s' => .next s'
    | .fault a => .next ((s.hartTrap 1 a).hartEnd pc 0 none)
    | .illegal h => .next ((s.hartTrap 2 h).hartEnd pc 0 none)
    | .word w len s1 =>
      match s1.hartDecode w with
      | .ok i =>
        match ex i s1 with
        | .next s2 => .next (s2.hartEnd pc len none)
        | o => o
      | .error e =>
        if isBaseWord e then
          let r := s1.rvBase w len
          .next (r.1.hartEnd pc len r.2)
        else .next ((s1.hartTrap 2 w).hartEnd pc len none)

end Sys2Proof.Machine
end

