-- ==== Sys2Proof/Machine/Distributor.lean ====
section
/-! DEFINITION. Meanings of Xlyrakds (R339-R345, R429): the extension of distributor cores. -/

namespace Sys2Proof.Machine

/-- Goes on on a distributor core; elsewhere the word is illegal (R339). -/
def State.asDist (s : State) (go : Nat → State) : State :=
  match s.focus with
  | .dist d => go d
  | _ => s.hartIllegal

/-- Writes bytes at a distributor address as they are; a declined store sets the core's flag. -/
def State.distPut (s : State) (d a : Nat) (bs : List Byte) : Put :=
  let flag (s : State) (declined : Bool) : State := if declined then s.onDist d fun k => { k with decl := true } else s
  match distSpot a bs.length with
  | .va va =>
    match s.ask (distAcc d (s.distCore d).asid .store) 0 [] 0 0 [.raw va bs false] none with
    | .still => .wait s
    | .went s1 => .wait s1
    | .got p _ s1 => .done (flag s1 (!p.declined.isEmpty))
  | .phys pa =>
    if !s.paOk pa bs.length then .fault
    else if !s.physRoom d pa bs.length then .wait s
    else let r := s.physWrite d pa bs; .done (flag r.1 r.2)
  | .journal off => .done (s.poke (journalKey d off) bs)
  | .regs off => .done ((List.range ((bs.length + 7) / 8)).foldl (fun s i =>
      let b := (bs.drop (8 * i)).take 8
      s.regStore d (off + 8 * i) b.length (leNat b)) s)
  | _ => .fault

/-! ## Binds (R340) -/

/-- Word i of a record. -/
def recWord (bs : List Byte) (i : Nat) : Nat := leNat ((bs.drop (8 * i)).take 8)

/-- The run-queue entry of a bind record. Word 2 is read at the bit positions that the launch record gives each field;
a record carries no completion pair and no queue, which are those of the newest log entry of its node. -/
def State.bindEntry (s : State) (bs : List Byte) (ticket fresh : Nat) : Entry :=
  let w := recWord bs
  let node := BitVec.ofNat 64 (w 3)
  let own : Nat × Nat :=
    match s.nodeEntry node with
    | some e => (Launch.ncc e.record, e.queue)
    | none => ((Config.bindNode fresh).1 % 2 ^ 56, (Config.bindNode fresh).2 % 64)
  { entry := fld (w 0) 0 56, asid := fld (w 0) 56 6, args := fld (w 1) 0 56, argLen := fld (w 2) 0 9, dslots := fld (w 2) 19 10
    accm := fld (w 2) 29 8, lpc := if bit (w 2) 15 then some (fld (w 2) 0 15) else none
    spc := if bit (w 2) 31 then some (fld (w 2) 16 15) else none, nodeId := node, g10 := BitVec.ofNat 64 (w 4)
    coords := (List.range 8).map fun i => BitVec.ofNat 64 (w (5 + i)), gang := some (fld (w 13) 0 32, fld (w 13) 32 5), ticket
    released := false, spawned := false, ncc := own.1, queue := own.2 }

def execLxBind (r : RType) (s : State) : Out :=
  .next (s.asDist fun d =>
    let c := s.x r.rs2
    if 20 ≤ c then s.hartIllegal
    else s.withRead (s.x r.rs1) 128 fun bs s =>
      if !(s.core (20 * d + c)).takes then s.hartWait
      else
        let n := s.nextTicket (20 * d + c)
        let t := s.draw
        ((t.2.onDie d fun k => { k with bcnt := k.bcnt.set c (n % 2 ^ 32) }).onCore (20 * d + c) fun k =>
          { k with runq := k.runq ++ [s.bindEntry bs n t.1] }).setX r.rd n)

def execLxRel (r : RType) (s : State) : Out :=
  .next (s.asDist fun d =>
    let v := s.x r.rs2
    if 2 ≤ v then s.hartIllegal
    else
      let t := s.relTicket d (s.x r.rs1) (v = 1)
      t.1.setX r.rd t.2)

/-! ## The journal (R341) -/

def execLxJwr (r : RType) (s : State) : Out :=
  .next (s.asDist fun d =>
    s.withRead (s.x r.rs1) 64 fun bs s =>
      let n := (s.die d).jtail
      ((s.poke (journalKey d (64 * (n % 16384))) (leBytes 4 n ++ (bs.take 64).drop 4)).onDie d fun k =>
        { k with jtail := (n + 1) % 2 ^ 32 }).setX r.rd n)

/-! ## Translation (R30, R32, R37, R339) -/

def execLxAsid (r : RType) (s : State) : Out :=
  .next (s.asDist fun d =>
    let v := s.x r.rs1
    if 64 ≤ v then s.hartIllegal else s.onDist d fun k => { k with asid := v })

def execLxInval (r : RType) (s : State) : Out :=
  .next (s.asDist fun d => s.invalidate (s.distCore d).asid (s.x r.rs1) (s.x r.rs2))

/-- Whether an address lies in translated space and this die is its home. -/
def State.homeHere (d va : Nat) : Bool :=
  match spot (.dist d) va with
  | .page => homeDie va = d
  | _ => false

def execLxMark (r : RType) (s : State) : Out :=
  .next (s.asDist fun d =>
    let va := s.x r.rs1
    if !State.homeHere d va then s.hartTrap 7 va
    else s.onDie d fun k =>
      let p := ((s.distCore d).asid, pageOf va)
      { k with migrating := if k.migrating.contains p then k.migrating else k.migrating ++ [p] })

def execLxAnsw (r : RType) (s : State) : Out :=
  .next (s.asDist fun d =>
    let v := s.x r.rs2
    if 2 ≤ v then s.hartIllegal else s.answer (s.distCore d).asid (s.x r.rs1) (v = 1))

/-! ## Events, port records, kicks (R343-R345, R429) -/

/-- The 32 bytes of an event record. -/
def EvRec.bytes (r : EvRec) : List Byte := wordBytes ((r.words ++ List.replicate 4 0).take 4)

def execLxEvget (r : RType) (s : State) : Out :=
  .next (s.asDist fun d =>
    match (s.die d).untaken with
    | [] => (s.onDie d Die.take).setX r.rd 0
    | e :: _ =>
      let a := s.x r.rs1
      match s.distPut d a e.bytes with
      | .done s' => (s'.onDie d Die.take).setX r.rd e.kind
      | .fault => s.hartTrap 7 a
      | .wait s' => s'.hartWait)

def execLxEvput (r : RType) (s : State) : Out :=
  .next (s.asDist fun _ =>
    s.withRead (s.x r.rs1) 64 fun bs s =>
      let w := recWord bs 0
      s.postPort (s.x r.rs2 % 2) (fld w 0 8) (fld w 8 5) (fld w 13 6)
        ((List.range 7).map fun i => BitVec.ofNat 64 (recWord bs (i + 1))))

/-- The lowest set bit of the kick bitmap is cleared and named; -1 when there is none. -/
def execLxKscan (r : RType) (s : State) : Out :=
  .next (s.asDist fun d =>
    let v := (s.die d).kicks
    if v = 0 then s.setX r.rd (2 ^ 64 - 1)
    else
      let n := ctz v.toNat 64
      (s.onDie d fun k => { k with kicks := k.kicks &&& ~~~(1#64 <<< n) }).setX r.rd n)

end Sys2Proof.Machine
end

