-- ==== Sys2Proof/Machine/Helper.lean ====
section
/-! DEFINITION. Meanings of Xlyrakcp (R332-R335): the extension of loader and storer cores. -/

namespace Sys2Proof.Machine

/-- Goes on on a helper; elsewhere the word is illegal (R332). -/
def State.asHelper (s : State) (go : Nat → Bool → State) : State :=
  match s.focus.helper? with
  | some (c, st) => go c st
  | none => s.hartIllegal

/-! ## lx.cpy (R333) -/

/-- Places of a copy control block that must be 0, a census shift or an image that is malformed: it accesses nothing. -/
def cpyBlockBad (bs : List Byte) (dst src : BitVec 1024) (x : Nat) (cbV : Bool) : Bool :=
  bit x 2 || fld x 19 13 ≠ 0 || leNat (bs.drop 260) ≠ 0 || dBad dst cbV || dBad src cbV

/-- A command of a helper joins a channel with the context it serves as its issuer. -/
def State.helperCommand (s : State) (c x ch : Nat) (cmd : EngCmd) : State :=
  let k := s.ctx c x
  s.onTl c (.ch ch) fun t =>
    { t with issued := t.issued + 1
             queue := t.queue ++ [{ num := t.issued + 1, after := 0, core := c, ctx := x, task := k.taskId,
                                    asid := (k.task.map (·.asid)).getD 0, key := k.rngkey, rstep := k.rngstep, cmd }] }

def execLxCpy (r : RType) (s : State) : Out :=
  .next (s.asHelper fun c st =>
    let a := s.x r.rs1
    let ch := s.x r.rs2
    if 4 ≤ ch then s.hartIllegal
    else if a % 8 ≠ 0 then s.hartTrap 4 a
    else s.withRead a 272 fun bs s =>
      let x := (s.helper c st).ctx
      let dst := BitVec.ofNat 1024 (leNat (bs.take 128))
      let src := BitVec.ofNat 1024 (leNat ((bs.drop 128).take 128))
      let w := leNat ((bs.drop 256).take 4)
      let cbV := (s.ctx c x).cbV
      let bad := cpyBlockBad bs dst src w cbV
      if !bad && copyBad dst src w cbV then s.hartIllegal
      else
        let cmd := if bad then EngCmd.bad
          else .copy dst src none (fld w 3 6) (if fld w 9 2 = 3 then dRnd dst else fld w 9 2) (sx (fld w 11 8 : Nat) 8)
        (s.helperCommand c x ch cmd).setX r.rd ((s.tl c (.ch ch)).issued + 1))

/-! ## Streams (R332, R334) -/

def execLxSbind (r : RType) (s : State) : Out :=
  .next (s.asHelper fun c st =>
    let v := s.x r.rs1
    if 64 ≤ v then s.hartIllegal else s.onHelper c st fun h => { h with sel := some (v % 4, v / 4) })

/-- The stream that a helper has selected. -/
def State.selected (s : State) (c : Nat) (st : Bool) : Option (Nat × Nat × Stream) :=
  (s.helper c st).sel.map fun p => (p.1, p.2, s.strm c p.1 p.2)

/-- Bytes that one group of elements takes: a period, an index, a pair of 4-bit elements, an element. -/
def Stream.groupBytes (st : Stream) : Nat :=
  match st.pat with
  | some p => p.period / 8
  | none => if dFmt st.desc = 9 then 2 else (fmtWidth (dFmt st.desc) + 7) / 8

/-- The elements of one group of pushed bytes, with the changes by saturation; a pushed VQ2 index has no block byte. -/
def Stream.groupElems (st : Stream) (bs : List Byte) : List Elem × Nat :=
  let v := leNat bs
  let f := dFmt st.desc
  match st.pat with
  | some p => periodElems p f v false
  | none =>
    if f = 9 then (vqElems st.table v 0 false, 0)
    else if fmtWidth f = 4 then ([(fmtRead f (v % 16), false), (fmtRead f (v / 16), false)], 0)
    else ([(fmtRead f v, false)], 0)

/-- Cuts whole groups off the pending bytes. -/
def Stream.cut (st : Stream) : Nat → Stream
  | 0 => st
  | n + 1 =>
    let g := st.groupBytes
    if g ≤ st.bytes.length then
      let e := st.groupElems ((st.bytes.take g).map (·.1))
      (({ st with bytes := st.bytes.drop g } : Stream).append e.1 e.2).cut n
    else st

/-- Whether four more bytes fit: the elements that they and the bytes not yet cut take part in have room. -/
def Stream.fitsFour (st : Stream) : Bool :=
  let g := max 1 st.groupBytes
  let per := if st.pat.isNone && fmtWidth (dFmt st.desc) = 4 then 2 else st.per
  (st.bytes.length + 4 + g - 1) / g * per ≤ st.room

def execLxSpush (r : RType) (s : State) : Out :=
  .next (s.asHelper fun c h =>
    match s.selected c h with
    | none => s.setX r.rd 0
    | some (x, q, st) =>
      if !st.bound || st.write || st.feed ≠ 1 || st.freed then s.setX r.rd 0
      else if !st.fitsFour then s.hartWait
      else
        let st1 := ({ st with bytes := st.bytes ++ (leBytes 4 (s.x r.rs1)).map fun b => (b, false) } : Stream).cut 4
        let s1 := s.onCtx c (s.helper c h).ctx fun k => k.count (st1.sats - st.sats)
        (s1.setStrm c x q st1).setX r.rd 1)

/-- One group of converted elements as bytes, densely at FMT width; the last 4-bit element of a stream that closes stands
alone. -/
def Stream.packGroup (st : Stream) : Option Stream :=
  let w := fmtWidth (dFmt st.desc)
  if w = 4 then
    match st.buf with
    | a :: b :: rest =>
      some { st with buf := rest, bytes := st.bytes ++ [(BitVec.ofNat 8 (zx a.1 4 + 16 * zx b.1 4), a.2 || b.2)] }
    | [a] => if st.closing then some { st with buf := [], bytes := st.bytes ++ [(BitVec.ofNat 8 (zx a.1 4), a.2)] } else none
    | [] => none
  else
    match st.buf with
    | a :: rest => some { st with buf := rest, bytes := st.bytes ++ (leBytes (w / 8) (zx a.1 w)).map fun b => (b, a.2) }
    | [] => none

/-- Packs until four bytes are there, if there are as many. -/
def Stream.packFour (st : Stream) : Nat → Stream
  | 0 => st
  | n + 1 =>
    if 4 ≤ st.bytes.length then st
    else match st.packGroup with
      | some st1 => st1.packFour n
      | none => st

def execLxSpop (r : RType) (s : State) : Out :=
  .next (s.asHelper fun c h =>
    match s.selected c h with
    | none => s.hartIllegal
    | some (x, q, st) =>
      if !st.bound || !st.write || st.feed ≠ 1 || st.freed then s.hartIllegal
      else
        let st1 := st.packFour 4
        let v := leNat ((st1.bytes.take 4).map (·.1))
        let rest := st1.bytes.drop 4
        if st1.bytes.length < 4 && !st.closing then s.hartWait
        else if st.closing && rest.isEmpty then (s.setStrm c x q {}).setX r.rd v
        else (s.setStrm c x q { st1 with bytes := rest }).setX r.rd v)

/-- With no stream selected the spec gives no status: a free value. -/
def execLxSstat (r : RType) (s : State) : Out :=
  .next (s.asHelper fun c st =>
    match s.selected c st with
    | some (_, _, q) => s.setX r.rd (q.status % 2 ^ 32)
    | none => let d := s.draw; d.2.setX r.rd (Config.unselected d.1 % 2 ^ 32))

/-! ## STAGE, XBASE, events, the end of a program (R332, R336) -/

def execLxStage (r : RType) (s : State) : Out :=
  .next (s.asHelper fun c _ =>
    let k := s.x r.rs1
    if k = 0 ∨ 2 ^ 31 ≤ k then s.hartIllegal
    else s.eatFlag fun s => s.onCore c fun m => { m with stage := (m.stage + k) % 2 ^ 64 })

def execLxXbase (r : RType) (s : State) : Out :=
  .next (s.asHelper fun c st =>
    let v := s.x r.rs1
    if 2 ^ 25 ≤ v then s.hartIllegal else s.onHelper c st fun h => { h with xbase := v })

/-- A post in the name of the context served; it waits while the event queue is full. -/
def execLxEv (r : RType) (s : State) : Out :=
  .next (s.asHelper fun c st =>
    if s.evLoad (dieOf c) ≥ 4096 then s.hartWait
    else s.eatFlag fun s =>
      let x := (s.helper c st).ctx
      let k := (s.ctx c x).task
      s.postEvent (dieOf c) 6 (postWords c x (s.x r.rs1) (BitVec.ofNat 64 (s.x r.rs2)) ((k.map (·.nodeId)).getD 0)
        ((k.map (·.queue)).getD 0)))

def execLxEnd (_r : RType) (s : State) : Out :=
  .next (s.asHelper fun c st => s.eatFlag fun s => s.onHelper c st fun h => { h with running := false, sel := none })

/-! ## Timelines (R332, R335) -/

/-- The counter that a selector names, as the helper observes it. -/
def State.helperCounter (s : State) (c : Nat) (imm : Int) : Nat := s.counter c (selKind imm.toNat) (selIndex imm.toNat)

def execLxWaitt (i : IType) (s : State) : Out :=
  .next (s.asHelper fun c st =>
    let kind := selKind i.imm.toNat
    let index := selIndex i.imm.toNat
    let v := s.helperCounter c i.imm
    let ahead := (v + 2 ^ 32 - s.x i.rs1) % 2 ^ 32
    if 2 ^ 31 ≤ ahead then s.hartWait
    else
      let ns := s.badNums c kind index (v - ahead) (s.helper c st).reported []
      let s1 := match s.timeline c kind index with
        | some (e, _) => s.onHelper c st fun h => { h with reported := h.reported ++ ns.map fun n => (e, n) }
        | none => s
      s1.setX i.rd (if ns.isEmpty then 0 else 1))

def execLxReadt (i : IType) (s : State) : Out :=
  .next (s.asHelper fun c _ => s.setX i.rd (s.helperCounter c i.imm % 2 ^ 32))

def execLxReadth (i : IType) (s : State) : Out :=
  .next (s.asHelper fun c _ => s.setX i.rd (s.helperCounter c i.imm / 2 ^ 32 % 2 ^ 32))

end Sys2Proof.Machine
end

