-- ==== Sys2Proof/Machine/Scalar.lean ====
section
/-! DEFINITION. Meanings of the scalar map (R228-R241). -/

namespace Sys2Proof.Machine



/-! ## Arithmetic, logic and moves (R228) -/

def execAdd (t : Tri) (s : State) : Out := .next (s.scalar2 t 1 fun a b => (a + b, 0))
def execAddi (t : ImmF) (s : State) : Out := .next (s.scalarI t fun a b => (a + b, 0))
def execSub (t : Tri) (s : State) : Out := .next (s.scalar2 t 1 fun a b => (a - b, 0))
def execMul (t : Tri) (s : State) : Out := .next (s.scalar2 t 3 fun a b => (a * b, 0))
def execMulh (t : Tri) (s : State) : Out := .next (s.scalar2 t 3 fun a b => (wd (a.toInt * b.toInt / 2 ^ 64), 0))
def execMulhn (t : Tri) (s : State) : Out :=
  .next (s.scalar2 t 3 fun a b => (BitVec.ofNat 64 (a.toNat * b.toNat / 2 ^ 64), 0))
def execAnd (t : Tri) (s : State) : Out := .next (s.scalar2 t 1 fun a b => (a &&& b, 0))
def execAndi (t : ImmF) (s : State) : Out := .next (s.scalarI t fun a b => (a &&& b, 0))
def execOr (t : Tri) (s : State) : Out := .next (s.scalar2 t 1 fun a b => (a ||| b, 0))
def execOri (t : ImmF) (s : State) : Out := .next (s.scalarI t fun a b => (a ||| b, 0))
def execXor (t : Tri) (s : State) : Out := .next (s.scalar2 t 1 fun a b => (a ^^^ b, 0))
def execXori (t : ImmF) (s : State) : Out := .next (s.scalarI t fun a b => (a ^^^ b, 0))
def execAndn (t : Tri) (s : State) : Out := .next (s.scalar2 t 1 fun a b => (a &&& ~~~b, 0))
def execMin (t : Tri) (s : State) : Out := .next (s.scalar2 t 1 fun a b => (if a.toInt ≤ b.toInt then a else b, 0))
def execMinn (t : Tri) (s : State) : Out := .next (s.scalar2 t 1 fun a b => (if a.toNat ≤ b.toNat then a else b, 0))
def execMax (t : Tri) (s : State) : Out := .next (s.scalar2 t 1 fun a b => (if a.toInt ≥ b.toInt then a else b, 0))
def execMaxn (t : Tri) (s : State) : Out := .next (s.scalar2 t 1 fun a b => (if a.toNat ≥ b.toNat then a else b, 0))
def execAbs (t : Tri) (s : State) : Out := .next (s.scalar1 t 1 absRes)
def execMov (t : Tri) (s : State) : Out := .next (s.scalar1 t 1 fun a => (a, 0))
def execMovi (t : ImmF) (s : State) : Out := .next (s.scalar t.slot t.pred 1 t.d [] fun _ => (wd t.imm, 0))

/-! ## Shifts, rotates, bit counts (R229) -/

def execShl (t : Tri) (s : State) : Out := .next (s.scalar2 t 1 fun a b => (a <<< (b.toNat % 64), 0))
def execShli (t : ImmF) (s : State) : Out := .next (s.scalarI t fun a b => (a <<< (b.toNat % 64), 0))
def execShr (t : Tri) (s : State) : Out := .next (s.scalar2 t 1 fun a b => (a >>> (b.toNat % 64), 0))
def execShri (t : ImmF) (s : State) : Out := .next (s.scalarI t fun a b => (a >>> (b.toNat % 64), 0))
def execSar (t : Tri) (s : State) : Out := .next (s.scalar2 t 1 fun a b => (a.sshiftRight (b.toNat % 64), 0))
def execSari (t : ImmF) (s : State) : Out := .next (s.scalarI t fun a b => (a.sshiftRight (b.toNat % 64), 0))
def execRol (t : Tri) (s : State) : Out := .next (s.scalar2 t 1 fun a b => (a.rotateLeft (b.toNat % 64), 0))
def execClz (t : Tri) (s : State) : Out := .next (s.scalar1 t 1 fun a => (BitVec.ofNat 64 (clz a.toNat 64), 0))
def execCtz (t : Tri) (s : State) : Out := .next (s.scalar1 t 1 fun a => (BitVec.ofNat 64 (ctz a.toNat 64), 0))
def execPopc (t : Tri) (s : State) : Out := .next (s.scalar1 t 1 fun a => (BitVec.ofNat 64 (popc a.toNat 64), 0))

/-! ## Bit fields and selection (R230, R231) -/

/-- pos and the effective width of a control value (R230). -/
def fieldPos (c : Nat) : Nat := fld c 0 6
def fieldWidth (c : Nat) : Nat := min (fld c 8 7) (64 - fieldPos c)

/-- EXT: SX is bit 16; width 0 gives 0 (R230). -/
def extRes (a : Word) (c : Nat) : Word :=
  let v := fld a.toNat (fieldPos c) (fieldWidth c)
  if fieldWidth c = 0 then 0 else if bit c 16 then wd (sx (v : Nat) (fieldWidth c)) else BitVec.ofNat 64 v

/-- INS: the field of the old destination replaced by the low bits of a (R230). -/
def insRes (old a : Word) (c : Nat) : Word :=
  let m : Word := BitVec.ofNat 64 (2 ^ fieldWidth c - 1) <<< fieldPos c
  (old &&& ~~~m) ||| ((a <<< fieldPos c) &&& m)

def execExt (t : Tri) (s : State) : Out :=
  .next (s.scalar t.slot t.pred 1 t.d (srcsAB t) fun s => (extRes (s.valA t) (s.ctlB t), 0))

def execIns (t : Tri) (s : State) : Out :=
  .next (s.scalar t.slot t.pred 1 t.d (srcsAB t ++ [.g t.d true]) fun s =>
    (insRes (s.g t.d).val (s.valA t) (s.ctlB t), 0))

def execSel (t : Tri) (s : State) : Out :=
  .next (s.issue { slot := t.slot, pred := t.pred, srcs := [srcA t, srcB t, .p (t.ext.getD 0) true],
                   dests := [s.dg t.d], eats := [srcA t, srcB t] } fun s =>
    s.result 1 (s.dg t.d) (wide (if (s.p (t.ext.getD 0)).val then s.valA t else (s.g t.b).val)) false 0)

/-! ## Compares and predicate logic (R232, R233) -/

def execCmp (cc : Cond) (t : Tri) (s : State) : Out :=
  .next (s.issue { slot := t.slot, pred := t.pred, srcs := srcsAB t, dests := [s.dp t.d], eats := srcsAB t } fun s =>
    s.result 1 (s.dp t.d) (bitVec (condHolds cc (s.valA t) (s.valB t))) false 0)

def execCmpi (cc : Cond) (t : ImmF) (s : State) : Out :=
  .next (s.issue { slot := t.slot, pred := t.pred, srcs := [.g t.a t.ba], dests := [s.dp t.d],
                   eats := [.g t.a t.ba] } fun s =>
    s.result 1 (s.dp t.d) (bitVec (condHolds cc (s.g t.a).val (wd t.imm))) false 0)

def execPand (t : Tri) (s : State) : Out := .next (s.predOp t [.p t.a t.ba, .p t.b t.bb] fun a b => a && b)
def execPor (t : Tri) (s : State) : Out := .next (s.predOp t [.p t.a t.ba, .p t.b t.bb] fun a b => a || b)
def execPxor (t : Tri) (s : State) : Out := .next (s.predOp t [.p t.a t.ba, .p t.b t.bb] fun a b => xor a b)
def execPnot (t : Tri) (s : State) : Out := .next (s.predOp t [.p t.a t.ba] fun a _ => !a)

/-! ## Rounding and saturation (R234-R236) -/

/-- The amount of SHRN: min(zx(b, 64), 64), or the immediate (R234). -/
def State.shrnAmount (s : State) (t : Tri) : Nat :=
  match t.ext with
  | some e => e
  | none => min (s.g t.b).val.toNat 64

def execShrn (t : Tri) (s : State) : Out :=
  .next (s.scalar t.slot t.pred 1 t.d (srcsAB t) fun s => (wd (shiftdown (s.valA t).toInt (s.shrnAmount t) 1 0 0), 0))

def execShrs (t : Tri) (s : State) : Out :=
  .next (s.scalar t.slot t.pred 1 t.d [srcA t, srcB t] fun s =>
    let c := t.ext.getD 0
    (wd (shiftdown (s.valA t).toInt (fld c 0 6) 2 (s.g t.b).val.toNat (fld c 8 7)), 0))

def execSats (t : Tri) (s : State) : Out :=
  .next (s.scalar t.slot t.pred 1 t.d (srcsAB t) fun s =>
    let c := s.ctlB t
    satsRes (s.valA t) (min (max (fld c 0 7) 1) 64) (bit c 7))

/-! ## Integer routines (R237-R241) -/

def execDivf (t : Tri) (s : State) : Out := .next (s.scalar2 t 36 divfRes)
def execRemf (t : Tri) (s : State) : Out := .next (s.scalar2 t 36 remfRes)

/-- A register pair Gd, G(d+1) at latency L (R240). -/
def State.pairOp (s : State) (t : Tri) (L : Nat) (f : Word → Word × Word × Nat) : State :=
  s.issue { slot := t.slot, pred := t.pred, srcs := [srcA t], dests := [s.dg t.d, s.dg (t.d + 1)] } fun s =>
    let p := s.anyPoison [srcA t]
    let r := f (s.valA t)
    (s.result L (s.dg t.d) (wide r.1) p (if p then 0 else r.2.2)).result L (s.dg (t.d + 1)) (wide r.2.1) p 0

def execRcpn (t : Tri) (s : State) : Out := .next (s.pairOp t 10 rcpnRes)
def execRsqn (t : Tri) (s : State) : Out := .next (s.pairOp t 14 rsqnRes)

/-- RND draws at RNGCTR as the bundle's earlier RND left it, and advances it (R241). A lone RND in s1 therefore draws at
RNGCTR, as R241's pseudocode has it; its bullet gives s1 RNGCTR + 1 (DESIGN CHOICE, log entry 67). -/
def execRnd (t : Tri) (s : State) : Out :=
  .next (s.issue { slot := t.slot, pred := t.pred, srcs := [], dests := [s.dg t.d] } fun s =>
    let s1 := s.result 2 (s.dg t.d) (wide (mix s.old.rngkey s.cur.rngctr s.old.rngstep)) false 0
    s1.onCur fun k => { k with rngctr := k.rngctr + 1 })

end Sys2Proof.Machine
end

