-- ==== Sys2Proof/Machine/Dispatch.lean ====
section
/-! DEFINITION. The meaning of each instruction, one direct call an arm. -/

namespace Sys2Proof.Machine

def exec (i : Instr) (s : State) : Host.Outcome State Fault Refusal :=
  match i with
  | .add t => Sys2Proof.Machine.execAdd t s
  | .addi t => Sys2Proof.Machine.execAddi t s
  | .sub t => Sys2Proof.Machine.execSub t s
  | .mul t => Sys2Proof.Machine.execMul t s
  | .mulh t => Sys2Proof.Machine.execMulh t s
  | .mulhn t => Sys2Proof.Machine.execMulhn t s
  | .and t => Sys2Proof.Machine.execAnd t s
  | .andi t => Sys2Proof.Machine.execAndi t s
  | .or t => Sys2Proof.Machine.execOr t s
  | .ori t => Sys2Proof.Machine.execOri t s
  | .xor t => Sys2Proof.Machine.execXor t s
  | .xori t => Sys2Proof.Machine.execXori t s
  | .andn t => Sys2Proof.Machine.execAndn t s
  | .min t => Sys2Proof.Machine.execMin t s
  | .minn t => Sys2Proof.Machine.execMinn t s
  | .max t => Sys2Proof.Machine.execMax t s
  | .maxn t => Sys2Proof.Machine.execMaxn t s
  | .abs t => Sys2Proof.Machine.execAbs t s
  | .mov t => Sys2Proof.Machine.execMov t s
  | .movi t => Sys2Proof.Machine.execMovi t s
  | .shl t => Sys2Proof.Machine.execShl t s
  | .shli t => Sys2Proof.Machine.execShli t s
  | .shr t => Sys2Proof.Machine.execShr t s
  | .shri t => Sys2Proof.Machine.execShri t s
  | .sar t => Sys2Proof.Machine.execSar t s
  | .sari t => Sys2Proof.Machine.execSari t s
  | .rol t => Sys2Proof.Machine.execRol t s
  | .clz t => Sys2Proof.Machine.execClz t s
  | .ctz t => Sys2Proof.Machine.execCtz t s
  | .popc t => Sys2Proof.Machine.execPopc t s
  | .ext t => Sys2Proof.Machine.execExt t s
  | .ins t => Sys2Proof.Machine.execIns t s
  | .sel t => Sys2Proof.Machine.execSel t s
  | .cmp cc t => Sys2Proof.Machine.execCmp cc t s
  | .cmpi cc t => Sys2Proof.Machine.execCmpi cc t s
  | .pand t => Sys2Proof.Machine.execPand t s
  | .por t => Sys2Proof.Machine.execPor t s
  | .pxor t => Sys2Proof.Machine.execPxor t s
  | .pnot t => Sys2Proof.Machine.execPnot t s
  | .shrn t => Sys2Proof.Machine.execShrn t s
  | .shrs t => Sys2Proof.Machine.execShrs t s
  | .sats t => Sys2Proof.Machine.execSats t s
  | .divf t => Sys2Proof.Machine.execDivf t s
  | .remf t => Sys2Proof.Machine.execRemf t s
  | .rcpn t => Sys2Proof.Machine.execRcpn t s
  | .rsqn t => Sys2Proof.Machine.execRsqn t s
  | .rnd t => Sys2Proof.Machine.execRnd t s
  | .bra t => Sys2Proof.Machine.execBra t s
  | .brc t => Sys2Proof.Machine.execBrc t s
  | .call t => Sys2Proof.Machine.execCall t s
  | .brr t => Sys2Proof.Machine.execBrr t s
  | .callr t => Sys2Proof.Machine.execCallr t s
  | .ret t => Sys2Proof.Machine.execRet t s
  | .loop t => Sys2Proof.Machine.execLoop t s
  | .loopx t => Sys2Proof.Machine.execLoopx t s
  | .ld z t => Sys2Proof.Machine.execLd z t s
  | .st z t => Sys2Proof.Machine.execSt z t s
  | .lda sc z t => Sys2Proof.Machine.execLda sc z t s
  | .stl sc z t => Sys2Proof.Machine.execStl sc z t s
  | .vld t => Sys2Proof.Machine.execVld t s
  | .vst t => Sys2Proof.Machine.execVst t s
  | .vstDescriptor t => Sys2Proof.Machine.execVstDescriptor t s
  | .vlds t => Sys2Proof.Machine.execVlds t s
  | .atom op sc o t => Sys2Proof.Machine.execAtom op sc o t s
  | .cas sc o t => Sys2Proof.Machine.execCas sc o t s
  | .fence sc o t => Sys2Proof.Machine.execFence sc o t s
  | .tlook t => Sys2Proof.Machine.execTlook t s
  | .tset t => Sys2Proof.Machine.execTset t s
  | .tclr t => Sys2Proof.Machine.execTclr t s
  | .tinv t => Sys2Proof.Machine.execTinv t s
  | .spill t => Sys2Proof.Machine.execSpill t s
  | .unspill t => Sys2Proof.Machine.execUnspill t s
  | .waitt t => Sys2Proof.Machine.execWaitt t s
  | .readt t => Sys2Proof.Machine.execReadt t s
  | .bara t => Sys2Proof.Machine.execBara t s
  | .barw t => Sys2Proof.Machine.execBarw t s
  | .barm t => Sys2Proof.Machine.execBarm t s
  | .cropen t => Sys2Proof.Machine.execCropen t s
  | .crclose t => Sys2Proof.Machine.execCrclose t s
  | .trap t => Sys2Proof.Machine.execTrap t s
  | .track t => Sys2Proof.Machine.execTrack t s
  | .tret t => Sys2Proof.Machine.execTret t s
  | .csrr t => Sys2Proof.Machine.execCsrr t s
  | .csrw t => Sys2Proof.Machine.execCsrw t s
  | .csrs t => Sys2Proof.Machine.execCsrs t s
  | .csrc t => Sys2Proof.Machine.execCsrc t s
  | .stageCsrWrite t => Sys2Proof.Machine.execStageCsrWrite t s
  | .cbtbaseWrite t => Sys2Proof.Machine.execCbtbaseWrite t s
  | .evpost t => Sys2Proof.Machine.execEvpost t s
  | .yield t => Sys2Proof.Machine.execYield t s
  | .endTask t => Sys2Proof.Machine.execEndTask t s
  | .icinv t => Sys2Proof.Machine.execIcinv t s
  | .lsupd t => Sys2Proof.Machine.execLsupd t s
  | .vadd w t => Sys2Proof.Machine.execVadd w t s
  | .vsub w t => Sys2Proof.Machine.execVsub w t s
  | .vadds w t => Sys2Proof.Machine.execVadds w t s
  | .vsubs w t => Sys2Proof.Machine.execVsubs w t s
  | .vmul w t => Sys2Proof.Machine.execVmul w t s
  | .vmulh w t => Sys2Proof.Machine.execVmulh w t s
  | .vmulsh w t => Sys2Proof.Machine.execVmulsh w t s
  | .vmac w t => Sys2Proof.Machine.execVmac w t s
  | .vmin w t => Sys2Proof.Machine.execVmin w t s
  | .vmax w t => Sys2Proof.Machine.execVmax w t s
  | .vabs w t => Sys2Proof.Machine.execVabs w t s
  | .vneg w t => Sys2Proof.Machine.execVneg w t s
  | .vand w t => Sys2Proof.Machine.execVand w t s
  | .vor w t => Sys2Proof.Machine.execVor w t s
  | .vxor w t => Sys2Proof.Machine.execVxor w t s
  | .vnot w t => Sys2Proof.Machine.execVnot w t s
  | .vshl w t => Sys2Proof.Machine.execVshl w t s
  | .vshr w t => Sys2Proof.Machine.execVshr w t s
  | .vsar w t => Sys2Proof.Machine.execVsar w t s
  | .vshrs w t => Sys2Proof.Machine.execVshrs w t s
  | .vshrn w t => Sys2Proof.Machine.execVshrn w t s
  | .vsat w t => Sys2Proof.Machine.execVsat w t s
  | .vwid w t => Sys2Proof.Machine.execVwid w t s
  | .vpack w t => Sys2Proof.Machine.execVpack w t s
  | .vcmp cc w t => Sys2Proof.Machine.execVcmp cc w t s
  | .vsel w t => Sys2Proof.Machine.execVsel w t s
  | .vbcast w t => Sys2Proof.Machine.execVbcast w t s
  | .vperm w t => Sys2Proof.Machine.execVperm w t s
  | .vshuf w t => Sys2Proof.Machine.execVshuf w t s
  | .vrot w t => Sys2Proof.Machine.execVrot w t s
  | .vmovg w t => Sys2Proof.Machine.execVmovg w t s
  | .vins w t => Sys2Proof.Machine.execVins w t s
  | .vredadd w t => Sys2Proof.Machine.execVredadd w t s
  | .vredmax w t => Sys2Proof.Machine.execVredmax w t s
  | .vredmin w t => Sys2Proof.Machine.execVredmin w t s
  | .vcensus w t => Sys2Proof.Machine.execVcensus w t s
  | .vexp2 w t => Sys2Proof.Machine.execVexp2 w t s
  | .vlut w t => Sys2Proof.Machine.execVlut w t s
  | .vhad w t => Sys2Proof.Machine.execVhad w t s
  | .vcbdec w t => Sys2Proof.Machine.execVcbdec w t s
  | .vclz w t => Sys2Proof.Machine.execVclz w t s
  | .viota w t => Sys2Proof.Machine.execViota w t s
  | .kand t => Sys2Proof.Machine.execKand t s
  | .kor t => Sys2Proof.Machine.execKor t s
  | .knot t => Sys2Proof.Machine.execKnot t s
  | .mldn t => Sys2Proof.Machine.execMldn t s
  | .mldw t => Sys2Proof.Machine.execMldw t s
  | .mlds t => Sys2Proof.Machine.execMlds t s
  | .mcps t => Sys2Proof.Machine.execMcps t s
  | .mrun t => Sys2Proof.Machine.execMrun t s
  | .mdrain t => Sys2Proof.Machine.execMdrain t s
  | .mclr t => Sys2Proof.Machine.execMclr t s
  | .maccmv t => Sys2Proof.Machine.execMaccmv t s
  | .mregrow t => Sys2Proof.Machine.execMregrow t s
  | .mpois t => Sys2Proof.Machine.execMpois t s
  | .sbind t => Sys2Proof.Machine.execSbind t s
  | .spat t => Sys2Proof.Machine.execSpat t s
  | .sfree t => Sys2Proof.Machine.execSfree t s
  | .sstat t => Sys2Proof.Machine.execSstat t s
  | .dset t => Sys2Proof.Machine.execDset t s
  | .dget t => Sys2Proof.Machine.execDget t s
  | .dsetf t => Sys2Proof.Machine.execDsetf t s
  | .dgetf t => Sys2Proof.Machine.execDgetf t s
  | .cpy t => Sys2Proof.Machine.execCpy t s
  | .cpym t => Sys2Proof.Machine.execCpym t s
  | .stage t => Sys2Proof.Machine.execStage t s
  | .gridld t => Sys2Proof.Machine.execGridld t s
  | .gridsc t => Sys2Proof.Machine.execGridsc t s
  | .wput t => Sys2Proof.Machine.execWput t s
  | .wget t => Sys2Proof.Machine.execWget t s
  | .coll t => Sys2Proof.Machine.execColl t s
  | .spawn t => Sys2Proof.Machine.execSpawn t s
  | .lxCpy r => Sys2Proof.Machine.execLxCpy r s
  | .lxSbind r => Sys2Proof.Machine.execLxSbind r s
  | .lxSpush r => Sys2Proof.Machine.execLxSpush r s
  | .lxSpop r => Sys2Proof.Machine.execLxSpop r s
  | .lxSstat r => Sys2Proof.Machine.execLxSstat r s
  | .lxStage r => Sys2Proof.Machine.execLxStage r s
  | .lxXbase r => Sys2Proof.Machine.execLxXbase r s
  | .lxEv r => Sys2Proof.Machine.execLxEv r s
  | .lxEnd r => Sys2Proof.Machine.execLxEnd r s
  | .lxWaitt x => Sys2Proof.Machine.execLxWaitt x s
  | .lxReadt x => Sys2Proof.Machine.execLxReadt x s
  | .lxReadth x => Sys2Proof.Machine.execLxReadth x s
  | .lxBind r => Sys2Proof.Machine.execLxBind r s
  | .lxRel r => Sys2Proof.Machine.execLxRel r s
  | .lxJwr r => Sys2Proof.Machine.execLxJwr r s
  | .lxAsid r => Sys2Proof.Machine.execLxAsid r s
  | .lxInval r => Sys2Proof.Machine.execLxInval r s
  | .lxMark r => Sys2Proof.Machine.execLxMark r s
  | .lxAnsw r => Sys2Proof.Machine.execLxAnsw r s
  | .lxEvget r => Sys2Proof.Machine.execLxEvget r s
  | .lxEvput r => Sys2Proof.Machine.execLxEvput r s
  | .lxKscan r => Sys2Proof.Machine.execLxKscan r s
  | .riscvLoad z x => Sys2Proof.Machine.execRiscvLoad z x s
  | .riscvStore z x => Sys2Proof.Machine.execRiscvStore z x s
  | .riscvAmo op dbl aq rl r => Sys2Proof.Machine.execRiscvAmo op dbl aq rl r s
  | .riscvFence fm pred succ => Sys2Proof.Machine.execRiscvFence fm pred succ s
  | .wfi => Sys2Proof.Machine.execWfi s
  | .yieldExpiry core ctx => Sys2Proof.Machine.execYieldExpiry core ctx s
  | .fixedResult core ctx => Sys2Proof.Machine.execFixedResult core ctx s
  | .returnArrival id => Sys2Proof.Machine.execReturnArrival id s
  | .landing core ctx => Sys2Proof.Machine.execLanding core ctx s
  | .lateArrival id => Sys2Proof.Machine.execLateArrival id s
  | .lossCountDue core ctx => Sys2Proof.Machine.execLossCountDue core ctx s
  | .engineCompletion core e => Sys2Proof.Machine.execEngineCompletion core e s
  | .taskBind core => Sys2Proof.Machine.execTaskBind core s
  | .spawnDelivery => Sys2Proof.Machine.execSpawnDelivery s
  | .helperStart core storer => Sys2Proof.Machine.execHelperStart core storer s
  | .scratchpadAccess id => Sys2Proof.Machine.execScratchpadAccess id s
  | .ringAccess id => Sys2Proof.Machine.execRingAccess id s
  | .mtuAccess id => Sys2Proof.Machine.execMtuAccess id s
  | .trackedPacketArrival id => Sys2Proof.Machine.execTrackedPacketArrival id s
  | .appliedAckSend home src => Sys2Proof.Machine.execAppliedAckSend home src s
  | .appliedAckArrival src home => Sys2Proof.Machine.execAppliedAckArrival src home s
  | .windowPutArrival p => Sys2Proof.Machine.execWindowPutArrival p s
  | .windowPutApplied n => Sys2Proof.Machine.execWindowPutApplied n s
  | .windowGetArrival p => Sys2Proof.Machine.execWindowGetArrival p s
  | .putAckArrival core wp num poison => Sys2Proof.Machine.execPutAckArrival core wp num poison s
  | .nodeSelection => Sys2Proof.Machine.execNodeSelection s
  | .logEntryDistribution die => Sys2Proof.Machine.execLogEntryDistribution die s
  | .offlineMapApply die => Sys2Proof.Machine.execOfflineMapApply die s
  | .taskEndRecord die => Sys2Proof.Machine.execTaskEndRecord die s
  | .queueSuspendBoundary q => Sys2Proof.Machine.execQueueSuspendBoundary q s
  | .eventRecordPost die => Sys2Proof.Machine.execEventRecordPost die s
  | .portRecordDelivery port => Sys2Proof.Machine.execPortRecordDelivery port s
  | .reliefCopyDone cl => Sys2Proof.Machine.execReliefCopyDone cl s
  | .scanPass cl => Sys2Proof.Machine.execScanPass cl s
  | .scanFail cl => Sys2Proof.Machine.execScanFail cl s
  | .quiesceReached => Sys2Proof.Machine.execQuiesceReached s
  | .captureDone => Sys2Proof.Machine.execCaptureDone s
  | .rollbackRestoreDone => Sys2Proof.Machine.execRollbackRestoreDone s
  | .switchForward p => Sys2Proof.Machine.execSwitchForward p s
  | .fabricPacketArrival p => Sys2Proof.Machine.execFabricPacketArrival p s
  | .e2eAckSend src sdie => Sys2Proof.Machine.execE2eAckSend src sdie s
  | .daymarkSwitch d => Sys2Proof.Machine.execDaymarkSwitch d s
  | .powerOn => Sys2Proof.Machine.execPowerOn s
  | .rebuildDone => Sys2Proof.Machine.execRebuildDone s
  | .streamElementArrival core ctx q => Sys2Proof.Machine.execStreamElementArrival core ctx q s
  | .cpymFollowOn core ch => Sys2Proof.Machine.execCpymFollowOn core ch s
  | .keeperLinkReport face link => Sys2Proof.Machine.execKeeperLinkReport face link s
  | .stagingConfirmed pkg => Sys2Proof.Machine.execStagingConfirmed pkg s
  | .exitFromPowerGating core => Sys2Proof.Machine.execExitFromPowerGating core s
  | .pageWalk asid va => Sys2Proof.Machine.execPageWalk asid va s
  | .rowFault die ctl row => Sys2Proof.Machine.execRowFault die ctl row s
  | .patrolScrub die => Sys2Proof.Machine.execPatrolScrub die s
  | .cxlPortDown port => Sys2Proof.Machine.execCxlPortDown port s
  | .distributorHandover die mcause => Sys2Proof.Machine.execDistributorHandover die mcause s
  | .distributionLost die mcause => Sys2Proof.Machine.execDistributionLost die mcause s
  | .hactUnwind core ctx => Sys2Proof.Machine.execHactUnwind core ctx s
  | .hactFail core ctx => Sys2Proof.Machine.execHactFail core ctx s
  | .clockGate core => Sys2Proof.Machine.execClockGate core s
  | .powerGate core => Sys2Proof.Machine.execPowerGate core s
  | .fogReport core => Sys2Proof.Machine.execFogReport core s
  | .rotationStep cl => Sys2Proof.Machine.execRotationStep cl s
  | .reliefMove cl => Sys2Proof.Machine.execReliefMove cl s
  | .linkFlit face link crcOk => Sys2Proof.Machine.execLinkFlit face link crcOk s
  | .linkResendLimit face link => Sys2Proof.Machine.execLinkResendLimit face link s
  | .linkLockLoss face link => Sys2Proof.Machine.execLinkLockLoss face link s
  | .heartbeatTimeout face link => Sys2Proof.Machine.execHeartbeatTimeout face link s
  | .e2eAckArrival sdie dst cum got => Sys2Proof.Machine.execE2eAckArrival sdie dst cum got s
  | .replayTimeout sdie dst => Sys2Proof.Machine.execReplayTimeout sdie dst s
  | .daymarkStage d table => Sys2Proof.Machine.execDaymarkStage d table s
  | .keeperTimeout => Sys2Proof.Machine.execKeeperTimeout s
  | .combiningTimeout key => Sys2Proof.Machine.execCombiningTimeout key s
  | .apertureRead port ordered off size => Sys2Proof.Machine.execApertureRead port ordered off size s
  | .apertureWrite port ordered off data => Sys2Proof.Machine.execApertureWrite port ordered off data s
  | .bridgeLinkLost port => Sys2Proof.Machine.execBridgeLinkLost port s
  | .lampTake port => Sys2Proof.Machine.execLampTake port s
  | .lampDrop port => Sys2Proof.Machine.execLampDrop port s
  | .qtailWrite port q v => Sys2Proof.Machine.execQtailWrite port q v s
  | .evheadWrite port v => Sys2Proof.Machine.execEvheadWrite port v s
  | .brerrClear port => Sys2Proof.Machine.execBrerrClear port s
  | .registerWrite port off v => Sys2Proof.Machine.execRegisterWrite port off v s
  | .queueCreate c => Sys2Proof.Machine.execQueueCreate c s
  | .queueDestroy c => Sys2Proof.Machine.execQueueDestroy c s
  | .queueSuspend c => Sys2Proof.Machine.execQueueSuspend c s
  | .queueResume c => Sys2Proof.Machine.execQueueResume c s
  | .queueTransfer c => Sys2Proof.Machine.execQueueTransfer c s
  | .kick c => Sys2Proof.Machine.execKick c s
  | .offlineMap c => Sys2Proof.Machine.execOfflineMap c s
  | .contextAction c => Sys2Proof.Machine.execContextAction c s
  | .quiesce c => Sys2Proof.Machine.execQuiesce c s
  | .capture c => Sys2Proof.Machine.execCapture c s
  | .commit c => Sys2Proof.Machine.execCommit c s
  | .rollback c => Sys2Proof.Machine.execRollback c s
  | .assumeIdentity c => Sys2Proof.Machine.execAssumeIdentity c s
  | .rebuild c => Sys2Proof.Machine.execRebuild c s
  | .registerGroup c => Sys2Proof.Machine.execRegisterGroup c s
  | .deregisterGroup c => Sys2Proof.Machine.execDeregisterGroup c s
  | .registerWindow c => Sys2Proof.Machine.execRegisterWindow c s
  | .deregisterWindow c => Sys2Proof.Machine.execDeregisterWindow c s
  | .loadObject c => Sys2Proof.Machine.execLoadObject c s
  | .unloadObject c => Sys2Proof.Machine.execUnloadObject c s
  | .installResidentImage c => Sys2Proof.Machine.execInstallResidentImage c s
  | .packageReset c => Sys2Proof.Machine.execPackageReset c s
  | .configurationImageChange c => Sys2Proof.Machine.execConfigurationImageChange c s
  | .registerAddressSpace c => Sys2Proof.Machine.execRegisterAddressSpace c s
  | .tearDownAddressSpace c => Sys2Proof.Machine.execTearDownAddressSpace c s
  | .translationInvalidate c => Sys2Proof.Machine.execTranslationInvalidate c s
  | .faultAnswer c => Sys2Proof.Machine.execFaultAnswer c s
  | .physicalWrite c => Sys2Proof.Machine.execPhysicalWrite c s
  | .physicalRead c => Sys2Proof.Machine.execPhysicalRead c s
  | .unknownCommand code c => Sys2Proof.Machine.execUnknownCommand code c s
  | .getVersion port => Sys2Proof.Machine.execGetVersion port s
  | .getCapabilities port => Sys2Proof.Machine.execGetCapabilities port s
  | .negotiateAlgorithms port => Sys2Proof.Machine.execNegotiateAlgorithms port s
  | .getDigests port => Sys2Proof.Machine.execGetDigests port s
  | .getCertificate port => Sys2Proof.Machine.execGetCertificate port s
  | .challenge port => Sys2Proof.Machine.execChallenge port s
  | .getMeasurements port => Sys2Proof.Machine.execGetMeasurements port s
  | .supplyOutOfRange inRange => Sys2Proof.Machine.execSupplyOutOfRange inRange s
  | .throttleDown die power => Sys2Proof.Machine.execThrottleDown die power s
  | .throttleRaise die power => Sys2Proof.Machine.execThrottleRaise die power s
  | .thermalTrip die celsius => Sys2Proof.Machine.execThermalTrip die celsius s
  | .bridgeLinkReturn port => Sys2Proof.Machine.execBridgeLinkReturn port s
  | .parityRecomputed => Sys2Proof.Machine.execParityRecomputed s
  | .thrmRead port => Sys2Proof.Machine.execThrmRead port s

end Sys2Proof.Machine
end

