-- ==== Sys2Proof/Machine/Events.lean ====
section
/-! DEFINITION. Which internal event happens next, and which agent moves when none is due (log entry 25). -/

namespace Sys2Proof.Machine

/-- Data on its way to a core. -/
def State.dueReply (s : State) : Option Instr :=
  s.replies.findSome? fun r =>
    if !s.inputFree r then none
    else if s.early r then (if (s.core r.core).heldEarly < 64 || !r.input then some (.returnArrival r.id) else none)
    else if (s.ctx r.core r.x).pend.any (fun p => p.landed && p.req = r.id) then some (.lateArrival r.id)
    else some (.returnArrival r.id)

/-- Data that waits at a core's input: it is written at its cycle whatever else is under way (R63). -/
def State.dueInput (s : State) : Option Instr :=
  ({ s with replies := s.replies.filter fun r => r.input } : State).dueReply

/-- What the matrix engines can take, push or complete. -/
def State.dueMx (s : State) : Option Instr :=
  s.cores.findSome? fun p => if (s.engStep p.1 .mx).isSome then some (.engineCompletion p.1 .mx) else none

/-- Results and landings whose cycle has come; contexts whose YIELD has run out. -/
def State.dueResult (s : State) : Option Instr :=
  s.cores.findSome? fun p =>
    p.2.ctxs.findSome? fun q =>
      let due (f : Pend → Bool) : Bool := q.2.pend.any fun r => r.due ≤ p.2.cycle && r.arrived && f r
      if due fun r => !r.landed then some (.fixedResult p.1 q.1)
      else if due fun r => r.landed then some (.landing p.1 q.1)
      else match q.2.status with
        | .waiting (.yielding till) => if till ≤ p.2.cycle then some (.yieldExpiry p.1 q.1) else none
        | _ => none

/-- Whether a packet can leave its source or reach its unit now. -/
def State.packetReady (s : State) (r : Req) : Bool := (s.packet? r).isSome

/-- The request that a scratchpad serves before one that it could serve now (R40), or that one. -/
def State.atBank (s : State) (r : Req) : Req :=
  match bankOf r.agent r.pieces with
  | some (.spad c _) =>
    (s.net.filter fun q => match bankOf q.agent q.pieces with | some (.spad d _) => c = d && s.serviceReady q | _ => false).foldl
      (fun a q => if q.precedes a then q else a) r
  | _ => r

/-- Accesses in flight, oldest first, but for the order at a bank. -/
def State.dueAccess (s : State) : Option Instr :=
  s.net.findSome? fun r =>
    if s.packetReady r then some (.trackedPacketArrival r.id)
    else if s.serviceReady r then
      let r := s.atBank r
      some (match r.unit with
        | 2 => .mtuAccess r.id
        | 1 => .ringAccess r.id
        | _ => .scratchpadAccess r.id)
    else none

/-- Acknowledgements to send or on their way. -/
def State.dueAck (s : State) : Option Instr :=
  match s.acks with
  | a :: _ => some (.appliedAckArrival a.1 a.2.1)
  | [] => s.dies.findSome? fun p => p.2.applied.findSome? fun q =>
      if s.ackSent q.1 p.1 ≠ (s.die p.1).applied.get q.1 0 then some (.appliedAckSend p.1 q.1) else none

def coreEngines : List Engine := [.mx, .ch 0, .ch 1, .ch 2, .ch 3, .grid, .wp 0, .wp 1, .wp 2, .wp 3]

/-- What the engines can do. -/
def State.dueEngine (s : State) : Option Instr :=
  (s.cores.findSome? fun p =>
    let c := p.1
    (coreEngines.findSome? fun e => if (s.engStep c e).isSome then some (.engineCompletion c e) else none).orElse fun _ =>
      (p.2.ctxs.findSome? fun q => q.2.q.findSome? fun r =>
        if r.2.bound && (s.feed c q.1 r.1).isSome then some (.streamElementArrival c q.1 r.1) else none).orElse fun _ =>
      [0, 1, 2, 3].findSome? fun ch => if (s.landedCpym c ch).isSome then some (.cpymFollowOn c ch) else none).orElse
    fun _ => if (s.engStep 0 .coll).isSome then some (.engineCompletion 0 .coll) else none

/-- Spawns to deliver, helper programs to start. -/
def State.dueTask (s : State) : Option Instr :=
  if s.spawns.any fun p => s.spawnReady p && !s.spawnParked p then some .spawnDelivery
  else s.cores.findSome? fun p =>
    let ready (h : Helper) : Bool := !h.starts.isEmpty && !h.running && !h.halted
    if ready p.2.loader then some (.helperStart p.1 false)
    else if ready p.2.storer then some (.helperStart p.1 true) else none

def allDies : List Nat := List.range 32

/-- What the resident firmware and the records ask for. -/
def State.dueFirmware (s : State) : Option Instr :=
  (s.dies.findSome? fun p =>
    match p.2.dueRow with
    | some x => some (.rowFault p.1 (ctlOf x) x)
    | none => if !p.2.evWait.isEmpty && s.evLoad p.1 < 4096 then some (.eventRecordPost p.1) else none).orElse fun _ =>
  ([0, 1].findSome? fun p => if (s.deliverRecord p).isSome then some (.portRecordDelivery p) else none).orElse fun _ =>
  (s.queues.findSome? fun q => if (s.suspendNow q.1).isSome then some (.queueSuspendBoundary q.1) else none).orElse fun _ =>
  (allDies.findSome? fun d =>
    if (s.taskEnd d).isSome then some (.taskEndRecord d)
    else if (s.applyMap d).isSome then some (.offlineMapApply d)
    else if (s.distribute d).isSome then some (.logEntryDistribution d) else none).orElse fun _ =>
  if s.selection.isSome then some .nodeSelection else none

/-- Puts applied at their target, gets whose bytes can be read. -/
def State.dueWindow (s : State) : Option Instr :=
  s.puts.findSome? fun f =>
    if f.get then (if (s.getAnswer f).isSome then some (.windowGetArrival f.p) else none)
    else if f.done then some (.windowPutApplied f.id) else none

/-- Rotation steps under way. -/
def State.dueRotation (s : State) : Option Instr :=
  s.dies.findSome? fun d => d.2.lp.findSome? fun q =>
    let cl := 5 * d.1 + q.1
    match q.2.step with
    | none => none
    | some (_, k) =>
      if (s.core (coreOf cl k)).moving then some (.reliefCopyDone cl)
      else if s.moveReady cl then some (.reliefMove cl) else none

/-- Checkpoints, rebuilding, wake-up of cores. -/
def State.dueCheck (s : State) : Option Instr :=
  if s.quietNow then some .quiesceReached
  else if s.ck.phase = 3 then some .captureDone
  else if s.ck.restoring then some .rollbackRestoreDone
  else if s.ck.rebuilding then some .rebuildDone
  else s.cores.findSome? fun p => if p.2.gate = .waking then some (.exitFromPowerGating p.1) else none

/-- Inputs that act while the supply holds the package in reset (R441): the supply itself, and the host's links, which lie
outside. -/
def reachesReset : Instr → Bool
  | .supplyOutOfRange _ => true
  | .bridgeLinkLost _ => true
  | .bridgeLinkReturn _ => true
  | _ => false

/-- A package out of reset boots (R436). -/
def State.dueBoot (s : State) : Option Instr :=
  if s.mgmt.bootPhase = 0 && !s.mgmt.recov && s.mgmt.supply then some .powerOn else none

/-- What a turn of an agent cannot leave for later. -/
def State.dueNow (s : State) : Option Instr :=
  s.dueBoot.orElse fun _ => s.dueInput.orElse fun _ => s.dueResult.orElse fun _ => s.dueMx

/-- The internal event that happens next. -/
def State.auto (s : State) : Option Instr :=
  s.dueBoot.orElse fun _ => s.dueReply.orElse fun _ => s.dueResult.orElse fun _ => s.dueAccess.orElse fun _ => s.dueAck.orElse fun _ =>
    s.dueEngine.orElse fun _ => s.dueTask.orElse fun _ => s.dueWindow.orElse fun _ => s.dueFabric.orElse fun _ =>
    s.dueFirmware.orElse fun _ => s.dueRotation.orElse fun _ => s.dueCheck

/-! ## Turns -/

/-- Whether a core has work. -/
def Core.active (k : Core) : Bool := !k.runq.isEmpty || k.ctxs.any fun p => p.2.busy

/-- Whether a distributor runs installed firmware: its core's own instructions (log entry 27). -/
def State.runsFirmware (s : State) (d : Nat) : Bool := !s.mgmt.fw.isEmpty && !(s.distCore d).halted

/-- The agents that move, in order. -/
def State.agents (s : State) : List Agent :=
  (s.cores.flatMap fun p =>
    (if p.2.active then [Agent.ctx p.1 0] else []) ++ (if p.2.loader.running then [Agent.loader p.1] else []) ++
      (if p.2.storer.running then [Agent.storer p.1] else [])) ++
    (allDies.filterMap fun d =>
      if s.runsFirmware d || (s.firmware d).isSome then some (Agent.dist d) else none) ++
    ([0, 1].filterMap fun p => if (s.hostTurn p).isSome then some (Agent.host p) else none)

/-- Where an agent stands among those that move: a core by any of its contexts. -/
def Agent.turn : Agent → Agent
  | .ctx c _ => .ctx c 0
  | a => a

/-- The agent after the one in focus. -/
def nextAgent (cur : Agent) (l : List Agent) : Agent :=
  match (l.dropWhile fun a => a ≠ cur.turn).drop 1 with
  | a :: _ => a
  | [] => l.headD .none

end Sys2Proof.Machine
end

