-- ==== Sys2Proof/Machine/Step.lean ====
section
/-! DEFINITION. One step of the package: the head of the agenda, an internal event that is due, or the agent in focus;
placing an instruction where the next step runs it. -/

namespace Sys2Proof.Machine

/-- The agent in focus moves: a core by a clock period, a helper or a distributor with installed firmware by an
instruction, the resident firmware by what it owes, a port by what it goes on with. -/
def State.runFocus (s : State) : Host.Outcome State Fault Refusal :=
  match s.focus with
  | .ctx c _ => .next (s.coreCycle exec c)
  | .loader c => if (s.helper c false).running then s.hartStep exec else .next s
  | .storer c => if (s.helper c true).running then s.hartStep exec else .next s
  | .dist d => if s.runsFirmware d then s.hartStep exec else .next ((s.firmware d).getD s)
  | .host p => .next ((s.hostTurn p).getD s)
  | _ => .next s

/-- The turn of the agent in focus, after which the next one has its turn. -/
def State.turn (s : State) : Host.Outcome State Fault Refusal :=
  match s.runFocus with
  | .next s' => .next { s' with focus := nextAgent s'.focus s'.agents }
  | o => o

/-- One step (log entry 25): nothing after a thermal trip; the inputs in order, those that reach the package;
else the internal event that is due; else
the agent in focus. An input can be a turn of an agent while accesses of others are still under way (R144): what it needs
first are only boot, data at the cores' inputs, results whose cycle has come, and what the matrix engines take, push or
complete by then (R63, R216, R217). -/
def step (s : State) : Host.Outcome State Fault Refusal :=
  if s.mgmt.tripped then .fault .poweredOff
  else match s.agenda with
    | .event i :: r =>
      if s.mgmt.supply || reachesReset i then exec i { s with agenda := r } else .next { s with agenda := r }
    | .error e :: r => .next ({ s with agenda := r }.memError e)
    | .turn a :: r =>
      match s.dueNow with
      | some i => exec i s
      | none => ({ s with agenda := r, focus := a } : State).turn
    | [] =>
      match s.auto with
      | some i => exec i s
      | none => s.turn

/-! ## Placing an instruction (log entry 28) -/

/-- A booted package with nothing to do before the agent `a`. -/
def State.ready (s : State) (a : Agent) : State :=
  { s with mgmt := { s.mgmt with bootPhase := 7, tripped := false }, agenda := [], focus := a }

/-- The word at offset 0 of the loader of core 0, which runs there. -/
def State.placeHelper (s : State) (w : Nat) : State :=
  let s1 := s.poke (istoreKey 0 0 0) (leBytes 4 w)
  (s1.onHelper 0 false fun h => { h with pc := 0, running := true, halted := false }).ready (.loader 0)

/-- The word at offset 0 of the instruction memory of die 0's distributor, with firmware installed. -/
def State.placeDist (s : State) (w : Nat) : State :=
  let s1 := s.poke (imemKey 0 (s.die 0).role.toNat 0) (leBytes 4 w)
  let s2 := s1.onDist 0 fun k => { k with pc := 2 ^ 63, halted := false }
  { s2 with mgmt := { s2.mgmt with fw := [0] } }.ready (.dist 0)

/-- The code page of address space 0. -/
def codePage : Nat := 0

/-- A bundle of up to nine words on a code page, with a task on context 0 of core 0 that comes to it: tables from physical
address 0x10_0000 on, the page at 0x20_0000. -/
def State.placeBundle (s : State) (w : Nat) : State :=
  let put (s : State) (pa v : Nat) : State := s.poke (deviceKey 0 pa) (leBytes 8 v)
  let s1 := [(0x100000, 0x10C401), (0x101000, 0x10C801), (0x102000, 0x10CC01), (0x103000, 0x200005)].foldl
    (fun s p => put s p.1 p.2) { s with spaces := s.spaces.set 0 { root := 0x100000, owner := 0 } }
  let s2 := s1.poke (deviceKey 0 0x200000) (leBytes 36 w)
  let t : Task := { asid := 0, nodeId := 0, ncc := 0, queue := 0, ticket := 0, gang := none, spawned := false, accm := 0, order := 0 }
  (s2.onCtx 0 0 fun k => { k with status := .ready, task := some t, pc := codePage, issue := 0, target := none }).ready (.ctx 0 0)

/-- The instruction with bits `w` where the next step runs it: a helper's word by its major opcode, another word up to 32
bits at a distributor, a longer one as a bundle. -/
def State.withFetchWord (s : State) (nbits w : Nat) : State :=
  if nbits ≤ 32 then (if fld w 0 7 = 0x0B then s.placeHelper w else s.placeDist w) else s.placeBundle w

end Sys2Proof.Machine
end

