-- ==== Sys2Proof/Laws/Memory.lean ====
section
/-! SUPPORT. Memory: a read after a write, other bytes, and the canonical form that every operation keeps. -/

namespace Sys2Proof.Laws

open Machine

/-! ## Reading one byte -/

theorem get_filter_ne (m : List Host.Cell) (k j : Nat) (h : j ≠ k) :
    Memory.get (m.filter fun c => c.1 ≠ k) j = Memory.get m j := by
  induction m with
  | nil => rfl
  | cons c r ih =>
    obtain ⟨i, b⟩ := c
    by_cases hi : i = k
    · subst hi
      simpa [Memory.get, Ne.symm h] using ih
    · by_cases hj : i = j <;> simp_all [Memory.get]

theorem get_of_no_key (m : List Host.Cell) (k : Nat) (h : ∀ c ∈ m, c.1 ≠ k) : Memory.get m k = 0 := by
  induction m with
  | nil => rfl
  | cons c r ih =>
    have hc := h c (by simp)
    simp [Memory.get, hc, ih fun d hd => h d (by simp [hd])]

theorem get_insert (m : List Host.Cell) (k j : Nat) (b : Byte) (h : ∀ c ∈ m, c.1 ≠ k) :
    Memory.get (Memory.insert m k b) j = if j = k then b else Memory.get m j := by
  induction m with
  | nil =>
    by_cases hj : k = j
    · subst hj; simp [Memory.insert, Memory.get]
    · simp [Memory.insert, Memory.get, hj, Ne.symm hj]
  | cons c r ih =>
    obtain ⟨i, v⟩ := c
    have hi : i ≠ k := h (i, v) (by simp)
    have hr := ih fun d hd => h d (by simp [hd])
    by_cases hk : k < i
    · by_cases hj : k = j
      · subst hj; simp [Memory.insert, Memory.get, hk]
      · simp [Memory.insert, Memory.get, hk, hj, Ne.symm hj]
    · by_cases hj : i = j
      · subst hj; simp [Memory.insert, Memory.get, hk, hi]
      · simp [Memory.insert, Memory.get, hk, hj, hr]

theorem get_set (m : List Host.Cell) (k j : Nat) (b : Byte) :
    Memory.get (Memory.set m k b) j = if j = k then b else Memory.get m j := by
  have hf : ∀ c ∈ m.filter (fun c => c.1 ≠ k), c.1 ≠ k := by simp
  by_cases hb : b = 0
  · subst hb
    by_cases hj : j = k
    · subst hj; simpa [Memory.set] using get_of_no_key _ _ hf
    · simp only [Memory.set, if_true, hj, if_false]; exact get_filter_ne m k j hj
  · simp only [Memory.set, hb, if_false]
    rw [get_insert _ _ _ _ hf]
    by_cases hj : j = k
    · simp [hj]
    · simp only [hj, if_false]; exact get_filter_ne m k j hj

theorem get_write (m : List Host.Cell) (bs : List Byte) (k j : Nat) :
    Memory.get (Memory.write m k bs) j = if k ≤ j ∧ j < k + bs.length then bs.getD (j - k) 0 else Memory.get m j := by
  induction bs generalizing m k with
  | nil => simp [Memory.write] <;> omega
  | cons b r ih =>
    rw [Memory.write, ih, get_set]
    by_cases h1 : j = k
    · subst h1; simp <;> omega
    · by_cases h2 : k + 1 ≤ j ∧ j < k + 1 + r.length
      · obtain ⟨d, rfl⟩ : ∃ d, j = k + 1 + d := ⟨j - (k + 1), by omega⟩
        have e : k + 1 + d - k = d + 1 := by omega
        simp [h2, e] <;> omega
      · rw [if_neg h2, if_neg h1, if_neg (by rw [List.length_cons]; omega)]

theorem get_filter_keep (m : List Host.Cell) (p : Host.Cell → Bool) (k : Nat) (h : ∀ b, p (k, b) = true) :
    Memory.get (m.filter p) k = Memory.get m k := by
  induction m with
  | nil => rfl
  | cons c r ih =>
    obtain ⟨i, b⟩ := c
    by_cases hi : i = k
    · subst hi; simp [List.filter, h, Memory.get]
    · cases hp : p (i, b) <;> simp [List.filter, hp, Memory.get, hi, ih]

theorem get_clear (m : List Host.Cell) (k n j : Nat) :
    Memory.get (Memory.clear m k n) j = if k ≤ j ∧ j < k + n then 0 else Memory.get m j := by
  by_cases h : k ≤ j ∧ j < k + n
  · rw [if_pos h]
    refine get_of_no_key _ _ fun c hc => ?_
    simp only [Memory.clear, List.mem_filter, decide_eq_true_eq] at hc
    omega
  · rw [if_neg h]
    exact get_filter_keep _ _ _ fun b => by simp only [decide_eq_true_eq]; omega

/-! ## Reading a run of bytes -/

theorem read_filter (m : List Host.Cell) (k n : Nat) (p : Host.Cell → Bool)
    (h : ∀ j b, k ≤ j → j < k + n → p (j, b) = true) : Memory.read (m.filter p) k n = Memory.read m k n := by
  induction n generalizing k with
  | zero => rfl
  | succ n ih =>
    rw [Memory.read, Memory.read, get_filter_keep _ _ _ fun b => h k b (by omega) (by omega),
      ih (k + 1) fun j b h1 h2 => h j b (by omega) (by omega)]

/-- The bytes of a state are those of its memory. -/
theorem bytes_eq (s : State) (k n : Nat) : s.bytes k n = Memory.read s.mem k n :=
  read_filter _ _ _ _ fun j b h1 h2 => by simp [h1, h2]

@[simp] theorem read_length (m : List Host.Cell) (k n : Nat) : (Memory.read m k n).length = n := by
  induction n generalizing k with
  | zero => rfl
  | succ n ih => simp [Memory.read, ih]

theorem read_write_other (m : List Host.Cell) (k j n : Nat) (bs : List Byte) (h : j + n ≤ k ∨ k + bs.length ≤ j) :
    Memory.read (Memory.write m k bs) j n = Memory.read m j n := by
  induction n generalizing j with
  | zero => rfl
  | succ n ih =>
    have hd : ¬ (k ≤ j ∧ j < k + bs.length) := by omega
    rw [Memory.read, Memory.read, get_write, if_neg hd, ih (j + 1) (by omega)]

theorem read_set_below (m : List Host.Cell) (k j n : Nat) (b : Byte) (h : k < j) :
    Memory.read (Memory.set m k b) j n = Memory.read m j n := by
  have := read_write_other m k j n [b] (Or.inr (by simp; omega))
  simpa [Memory.write] using this

/-- A read of what has been written gives it. -/
theorem read_write_self (m : List Host.Cell) (k : Nat) (bs : List Byte) :
    Memory.read (Memory.write m k bs) k bs.length = bs := by
  induction bs generalizing m k with
  | nil => rfl
  | cons b r ih =>
    have hd : Memory.get (Memory.write m k (b :: r)) k = b := by rw [get_write]; simp
    simp only [List.length_cons, Memory.read, hd]
    rw [Memory.write, ih]

/-! ## The canonical form -/

theorem mem_insert (m : List Host.Cell) (k : Nat) (b : Byte) (c : Host.Cell) :
    c ∈ Memory.insert m k b ↔ c = (k, b) ∨ c ∈ m := by
  induction m with
  | nil => simp [Memory.insert]
  | cons d r ih =>
    obtain ⟨i, v⟩ := d
    by_cases h : k < i
    · simp [Memory.insert, h]
    · simp only [Memory.insert, h, if_false, List.mem_cons, ih]
      constructor
      · rintro (h | h | h) <;> simp [h]
      · rintro (h | h | h) <;> simp [h]

theorem wf_filter (m : List Host.Cell) (p : Host.Cell → Bool) (h : Memory.wf m) : Memory.wf (m.filter p) :=
  ⟨h.1.filter p, fun c hc => h.2 c (List.mem_filter.1 hc).1⟩

theorem wf_insert (m : List Host.Cell) (k : Nat) (b : Byte) (h : Memory.wf m) (hb : b ≠ 0) (hk : ∀ c ∈ m, c.1 ≠ k) :
    Memory.wf (Memory.insert m k b) := by
  refine ⟨?_, fun c hc => ?_⟩
  · induction m with
    | nil => simp [Memory.insert]
    | cons d r ih =>
      obtain ⟨i, v⟩ := d
      have hr : Memory.wf r := ⟨(List.pairwise_cons.1 h.1).2, fun c hc => h.2 c (by simp [hc])⟩
      have ho := (List.pairwise_cons.1 h.1).1
      have hi : i ≠ k := hk (i, v) (by simp)
      by_cases hlt : k < i
      · simp only [Memory.insert, hlt, if_true]
        refine List.pairwise_cons.2 ⟨fun c hc => ?_, h.1⟩
        rcases List.mem_cons.1 hc with rfl | hc
        · exact hlt
        · exact Nat.lt_trans hlt (ho c hc)
      · simp only [Memory.insert, hlt, if_false]
        refine List.pairwise_cons.2 ⟨fun c hc => ?_, ih hr fun c hc => hk c (by simp [hc])⟩
        rcases (mem_insert r k b c).1 hc with rfl | hc
        · show i < k; omega
        · exact ho c hc
  · rcases (mem_insert m k b c).1 hc with rfl | hc
    · exact hb
    · exact h.2 c hc

theorem wf_set (m : List Host.Cell) (k : Nat) (b : Byte) (h : Memory.wf m) : Memory.wf (Memory.set m k b) := by
  have hf : Memory.wf (m.filter fun c => c.1 ≠ k) := wf_filter m _ h
  by_cases hb : b = 0
  · simpa only [Memory.set, hb, if_true] using hf
  · simp only [Memory.set, hb, if_false]; exact wf_insert _ _ _ hf hb (by simp)

theorem wf_write (m : List Host.Cell) (k : Nat) (bs : List Byte) (h : Memory.wf m) : Memory.wf (Memory.write m k bs) := by
  induction bs generalizing m k with
  | nil => exact h
  | cons b r ih => exact ih _ _ (wf_set m k b h)

theorem wf_clear (m : List Host.Cell) (k n : Nat) (h : Memory.wf m) : Memory.wf (Memory.clear m k n) := wf_filter m _ h

theorem wf_setAll (m : List Host.Cell) (l : List (Nat × Byte)) (h : Memory.wf m) : Memory.wf (Memory.setAll m l) := by
  induction l generalizing m with
  | nil => exact h
  | cons c r ih => exact ih _ (wf_set m c.1 c.2 h)

theorem wf_poke (s : State) (k : Nat) (bs : List Byte) (h : Memory.wf s.mem) : Memory.wf (s.poke k bs).mem := wf_write _ _ _ h

theorem wf_store (s : State) (k : Nat) (bs : List Byte) (p : Bool) (h : Memory.wf s.mem) : Memory.wf (s.store k bs p).mem :=
  wf_write _ _ _ h

/-- Two canonical memories that read alike are the same list. -/
theorem wf_ext (m n : List Host.Cell) (hm : Memory.wf m) (hn : Memory.wf n) (h : ∀ k, Memory.get m k = Memory.get n k) :
    m = n := by
  have hd : ∀ (k : Nat) (b : Byte) (r : List Host.Cell), Memory.wf ((k, b) :: r) → Memory.get r k = 0 := fun k b r hw =>
    get_of_no_key r k fun c hc => by have := (List.pairwise_cons.1 hw.1).1 c hc; omega
  have tl : ∀ (c : Host.Cell) (r : List Host.Cell), Memory.wf (c :: r) → Memory.wf r := fun c r hw =>
    ⟨(List.pairwise_cons.1 hw.1).2, fun d hd => hw.2 d (by simp [hd])⟩
  induction m generalizing n with
  | nil =>
    cases n with
    | nil => rfl
    | cons c r => exact absurd (by simpa [Memory.get] using (h c.1).symm) (hn.2 c (by simp))
  | cons c r ih =>
    obtain ⟨i, b⟩ := c
    cases n with
    | nil => exact absurd (by simpa [Memory.get] using h i) (hm.2 (i, b) (by simp))
    | cons d q =>
      obtain ⟨j, v⟩ := d
      have hb : b ≠ 0 := hm.2 (i, b) (by simp)
      have hv : v ≠ 0 := hn.2 (j, v) (by simp)
      have h0 : ∀ (a x : Nat) (w : Byte) (l : List Host.Cell), Memory.wf ((x, w) :: l) → a < x → Memory.get ((x, w) :: l) a = 0 :=
        fun a x w l hw hlt => get_of_no_key _ _ fun c hc => by
          rcases List.mem_cons.1 hc with rfl | hc
          · show x ≠ a; omega
          · have := (List.pairwise_cons.1 hw.1).1 c hc; simp only at this; omega
      have hij : i = j := by
        rcases Nat.lt_trichotomy i j with hlt | he | hlt
        · have e := h i; rw [h0 i j v q hn hlt] at e; simp [Memory.get] at e; exact absurd e hb
        · exact he
        · have e := h j; rw [h0 j i b r hm hlt] at e; simp [Memory.get] at e; exact absurd e.symm hv
      subst hij
      have hbv : b = v := by simpa [Memory.get] using h i
      subst hbv
      have := ih q (tl _ _ hm) (tl _ _ hn) fun k => by
        by_cases hk : i = k
        · subst hk; rw [hd _ _ _ hm, hd _ _ _ hn]
        · simpa [Memory.get, hk] using h k
      rw [this]

theorem reset_mem_wf : Memory.wf State.reset.mem := ⟨List.Pairwise.nil, by simp [State.reset]⟩

end Sys2Proof.Laws
end

