-- ==== Sys2Proof/Laws/State.lean ====
section
/-! SUPPORT. The fields of the state under each of its updates, and what is read back from a part that has been set. -/

namespace Sys2Proof.Laws

open Machine

/-! State.setCore: only `cores` changes. -/

@[simp] theorem setCore_mem (s : State) (c : Nat) (k : Core) : (s.setCore c k).mem = s.mem := rfl
@[simp] theorem setCore_poison (s : State) (c : Nat) (k : Core) : (s.setCore c k).poison = s.poison := rfl
@[simp] theorem setCore_dies (s : State) (c : Nat) (k : Core) : (s.setCore c k).dies = s.dies := rfl
@[simp] theorem setCore_barriers (s : State) (c : Nat) (k : Core) : (s.setCore c k).barriers = s.barriers := rfl
@[simp] theorem setCore_queues (s : State) (c : Nat) (k : Core) : (s.setCore c k).queues = s.queues := rfl
@[simp] theorem setCore_ports (s : State) (c : Nat) (k : Core) : (s.setCore c k).ports = s.ports := rfl
@[simp] theorem setCore_lamp (s : State) (c : Nat) (k : Core) : (s.setCore c k).lamp = s.lamp := rfl
@[simp] theorem setCore_windows (s : State) (c : Nat) (k : Core) : (s.setCore c k).windows = s.windows := rfl
@[simp] theorem setCore_spaces (s : State) (c : Nat) (k : Core) : (s.setCore c k).spaces = s.spaces := rfl
@[simp] theorem setCore_parked (s : State) (c : Nat) (k : Core) : (s.setCore c k).parked = s.parked := rfl
@[simp] theorem setCore_net (s : State) (c : Nat) (k : Core) : (s.setCore c k).net = s.net := rfl
@[simp] theorem setCore_replies (s : State) (c : Nat) (k : Core) : (s.setCore c k).replies = s.replies := rfl
@[simp] theorem setCore_acks (s : State) (c : Nat) (k : Core) : (s.setCore c k).acks = s.acks := rfl
@[simp] theorem setCore_nextId (s : State) (c : Nat) (k : Core) : (s.setCore c k).nextId = s.nextId := rfl
@[simp] theorem setCore_puts (s : State) (c : Nat) (k : Core) : (s.setCore c k).puts = s.puts := rfl
@[simp] theorem setCore_spawns (s : State) (c : Nat) (k : Core) : (s.setCore c k).spawns = s.spawns := rfl
@[simp] theorem setCore_logSeq (s : State) (c : Nat) (k : Core) : (s.setCore c k).logSeq = s.logSeq := rfl
@[simp] theorem setCore_mapPend (s : State) (c : Nat) (k : Core) : (s.setCore c k).mapPend = s.mapPend := rfl
@[simp] theorem setCore_coll (s : State) (c : Nat) (k : Core) : (s.setCore c k).coll = s.coll := rfl
@[simp] theorem setCore_groups (s : State) (c : Nat) (k : Core) : (s.setCore c k).groups = s.groups := rfl
@[simp] theorem setCore_symbols (s : State) (c : Nat) (k : Core) : (s.setCore c k).symbols = s.symbols := rfl
@[simp] theorem setCore_objects (s : State) (c : Nat) (k : Core) : (s.setCore c k).objects = s.objects := rfl
@[simp] theorem setCore_ck (s : State) (c : Nat) (k : Core) : (s.setCore c k).ck = s.ck := rfl
@[simp] theorem setCore_saved (s : State) (c : Nat) (k : Core) : (s.setCore c k).saved = s.saved := rfl
@[simp] theorem setCore_fabric (s : State) (c : Nat) (k : Core) : (s.setCore c k).fabric = s.fabric := rfl
@[simp] theorem setCore_mgmt (s : State) (c : Nat) (k : Core) : (s.setCore c k).mgmt = s.mgmt := rfl
@[simp] theorem setCore_cxlDown (s : State) (c : Nat) (k : Core) : (s.setCore c k).cxlDown = s.cxlDown := rfl
@[simp] theorem setCore_results (s : State) (c : Nat) (k : Core) : (s.setCore c k).results = s.results := rfl
@[simp] theorem setCore_agenda (s : State) (c : Nat) (k : Core) : (s.setCore c k).agenda = s.agenda := rfl
@[simp] theorem setCore_focus (s : State) (c : Nat) (k : Core) : (s.setCore c k).focus = s.focus := rfl
@[simp] theorem setCore_before (s : State) (c : Nat) (k : Core) : (s.setCore c k).before = s.before := rfl
@[simp] theorem setCore_mark (s : State) (c : Nat) (k : Core) : (s.setCore c k).mark = s.mark := rfl
@[simp] theorem setCore_fresh (s : State) (c : Nat) (k : Core) : (s.setCore c k).fresh = s.fresh := rfl

/-! State.onCore: only `cores` changes. -/

@[simp] theorem onCore_mem (s : State) (c : Nat) (f : Core → Core) : (s.onCore c f).mem = s.mem := rfl
@[simp] theorem onCore_poison (s : State) (c : Nat) (f : Core → Core) : (s.onCore c f).poison = s.poison := rfl
@[simp] theorem onCore_dies (s : State) (c : Nat) (f : Core → Core) : (s.onCore c f).dies = s.dies := rfl
@[simp] theorem onCore_barriers (s : State) (c : Nat) (f : Core → Core) : (s.onCore c f).barriers = s.barriers := rfl
@[simp] theorem onCore_queues (s : State) (c : Nat) (f : Core → Core) : (s.onCore c f).queues = s.queues := rfl
@[simp] theorem onCore_ports (s : State) (c : Nat) (f : Core → Core) : (s.onCore c f).ports = s.ports := rfl
@[simp] theorem onCore_lamp (s : State) (c : Nat) (f : Core → Core) : (s.onCore c f).lamp = s.lamp := rfl
@[simp] theorem onCore_windows (s : State) (c : Nat) (f : Core → Core) : (s.onCore c f).windows = s.windows := rfl
@[simp] theorem onCore_spaces (s : State) (c : Nat) (f : Core → Core) : (s.onCore c f).spaces = s.spaces := rfl
@[simp] theorem onCore_parked (s : State) (c : Nat) (f : Core → Core) : (s.onCore c f).parked = s.parked := rfl
@[simp] theorem onCore_net (s : State) (c : Nat) (f : Core → Core) : (s.onCore c f).net = s.net := rfl
@[simp] theorem onCore_replies (s : State) (c : Nat) (f : Core → Core) : (s.onCore c f).replies = s.replies := rfl
@[simp] theorem onCore_acks (s : State) (c : Nat) (f : Core → Core) : (s.onCore c f).acks = s.acks := rfl
@[simp] theorem onCore_nextId (s : State) (c : Nat) (f : Core → Core) : (s.onCore c f).nextId = s.nextId := rfl
@[simp] theorem onCore_puts (s : State) (c : Nat) (f : Core → Core) : (s.onCore c f).puts = s.puts := rfl
@[simp] theorem onCore_spawns (s : State) (c : Nat) (f : Core → Core) : (s.onCore c f).spawns = s.spawns := rfl
@[simp] theorem onCore_logSeq (s : State) (c : Nat) (f : Core → Core) : (s.onCore c f).logSeq = s.logSeq := rfl
@[simp] theorem onCore_mapPend (s : State) (c : Nat) (f : Core → Core) : (s.onCore c f).mapPend = s.mapPend := rfl
@[simp] theorem onCore_coll (s : State) (c : Nat) (f : Core → Core) : (s.onCore c f).coll = s.coll := rfl
@[simp] theorem onCore_groups (s : State) (c : Nat) (f : Core → Core) : (s.onCore c f).groups = s.groups := rfl
@[simp] theorem onCore_symbols (s : State) (c : Nat) (f : Core → Core) : (s.onCore c f).symbols = s.symbols := rfl
@[simp] theorem onCore_objects (s : State) (c : Nat) (f : Core → Core) : (s.onCore c f).objects = s.objects := rfl
@[simp] theorem onCore_ck (s : State) (c : Nat) (f : Core → Core) : (s.onCore c f).ck = s.ck := rfl
@[simp] theorem onCore_saved (s : State) (c : Nat) (f : Core → Core) : (s.onCore c f).saved = s.saved := rfl
@[simp] theorem onCore_fabric (s : State) (c : Nat) (f : Core → Core) : (s.onCore c f).fabric = s.fabric := rfl
@[simp] theorem onCore_mgmt (s : State) (c : Nat) (f : Core → Core) : (s.onCore c f).mgmt = s.mgmt := rfl
@[simp] theorem onCore_cxlDown (s : State) (c : Nat) (f : Core → Core) : (s.onCore c f).cxlDown = s.cxlDown := rfl
@[simp] theorem onCore_results (s : State) (c : Nat) (f : Core → Core) : (s.onCore c f).results = s.results := rfl
@[simp] theorem onCore_agenda (s : State) (c : Nat) (f : Core → Core) : (s.onCore c f).agenda = s.agenda := rfl
@[simp] theorem onCore_focus (s : State) (c : Nat) (f : Core → Core) : (s.onCore c f).focus = s.focus := rfl
@[simp] theorem onCore_before (s : State) (c : Nat) (f : Core → Core) : (s.onCore c f).before = s.before := rfl
@[simp] theorem onCore_mark (s : State) (c : Nat) (f : Core → Core) : (s.onCore c f).mark = s.mark := rfl
@[simp] theorem onCore_fresh (s : State) (c : Nat) (f : Core → Core) : (s.onCore c f).fresh = s.fresh := rfl

/-! State.setCtx: only `cores` changes. -/

@[simp] theorem setCtx_mem (s : State) (c x : Nat) (v : Ctx) : (s.setCtx c x v).mem = s.mem := rfl
@[simp] theorem setCtx_poison (s : State) (c x : Nat) (v : Ctx) : (s.setCtx c x v).poison = s.poison := rfl
@[simp] theorem setCtx_dies (s : State) (c x : Nat) (v : Ctx) : (s.setCtx c x v).dies = s.dies := rfl
@[simp] theorem setCtx_barriers (s : State) (c x : Nat) (v : Ctx) : (s.setCtx c x v).barriers = s.barriers := rfl
@[simp] theorem setCtx_queues (s : State) (c x : Nat) (v : Ctx) : (s.setCtx c x v).queues = s.queues := rfl
@[simp] theorem setCtx_ports (s : State) (c x : Nat) (v : Ctx) : (s.setCtx c x v).ports = s.ports := rfl
@[simp] theorem setCtx_lamp (s : State) (c x : Nat) (v : Ctx) : (s.setCtx c x v).lamp = s.lamp := rfl
@[simp] theorem setCtx_windows (s : State) (c x : Nat) (v : Ctx) : (s.setCtx c x v).windows = s.windows := rfl
@[simp] theorem setCtx_spaces (s : State) (c x : Nat) (v : Ctx) : (s.setCtx c x v).spaces = s.spaces := rfl
@[simp] theorem setCtx_parked (s : State) (c x : Nat) (v : Ctx) : (s.setCtx c x v).parked = s.parked := rfl
@[simp] theorem setCtx_net (s : State) (c x : Nat) (v : Ctx) : (s.setCtx c x v).net = s.net := rfl
@[simp] theorem setCtx_replies (s : State) (c x : Nat) (v : Ctx) : (s.setCtx c x v).replies = s.replies := rfl
@[simp] theorem setCtx_acks (s : State) (c x : Nat) (v : Ctx) : (s.setCtx c x v).acks = s.acks := rfl
@[simp] theorem setCtx_nextId (s : State) (c x : Nat) (v : Ctx) : (s.setCtx c x v).nextId = s.nextId := rfl
@[simp] theorem setCtx_puts (s : State) (c x : Nat) (v : Ctx) : (s.setCtx c x v).puts = s.puts := rfl
@[simp] theorem setCtx_spawns (s : State) (c x : Nat) (v : Ctx) : (s.setCtx c x v).spawns = s.spawns := rfl
@[simp] theorem setCtx_logSeq (s : State) (c x : Nat) (v : Ctx) : (s.setCtx c x v).logSeq = s.logSeq := rfl
@[simp] theorem setCtx_mapPend (s : State) (c x : Nat) (v : Ctx) : (s.setCtx c x v).mapPend = s.mapPend := rfl
@[simp] theorem setCtx_coll (s : State) (c x : Nat) (v : Ctx) : (s.setCtx c x v).coll = s.coll := rfl
@[simp] theorem setCtx_groups (s : State) (c x : Nat) (v : Ctx) : (s.setCtx c x v).groups = s.groups := rfl
@[simp] theorem setCtx_symbols (s : State) (c x : Nat) (v : Ctx) : (s.setCtx c x v).symbols = s.symbols := rfl
@[simp] theorem setCtx_objects (s : State) (c x : Nat) (v : Ctx) : (s.setCtx c x v).objects = s.objects := rfl
@[simp] theorem setCtx_ck (s : State) (c x : Nat) (v : Ctx) : (s.setCtx c x v).ck = s.ck := rfl
@[simp] theorem setCtx_saved (s : State) (c x : Nat) (v : Ctx) : (s.setCtx c x v).saved = s.saved := rfl
@[simp] theorem setCtx_fabric (s : State) (c x : Nat) (v : Ctx) : (s.setCtx c x v).fabric = s.fabric := rfl
@[simp] theorem setCtx_mgmt (s : State) (c x : Nat) (v : Ctx) : (s.setCtx c x v).mgmt = s.mgmt := rfl
@[simp] theorem setCtx_cxlDown (s : State) (c x : Nat) (v : Ctx) : (s.setCtx c x v).cxlDown = s.cxlDown := rfl
@[simp] theorem setCtx_results (s : State) (c x : Nat) (v : Ctx) : (s.setCtx c x v).results = s.results := rfl
@[simp] theorem setCtx_agenda (s : State) (c x : Nat) (v : Ctx) : (s.setCtx c x v).agenda = s.agenda := rfl
@[simp] theorem setCtx_focus (s : State) (c x : Nat) (v : Ctx) : (s.setCtx c x v).focus = s.focus := rfl
@[simp] theorem setCtx_before (s : State) (c x : Nat) (v : Ctx) : (s.setCtx c x v).before = s.before := rfl
@[simp] theorem setCtx_mark (s : State) (c x : Nat) (v : Ctx) : (s.setCtx c x v).mark = s.mark := rfl
@[simp] theorem setCtx_fresh (s : State) (c x : Nat) (v : Ctx) : (s.setCtx c x v).fresh = s.fresh := rfl

/-! State.onCtx: only `cores` changes. -/

@[simp] theorem onCtx_mem (s : State) (c x : Nat) (f : Ctx → Ctx) : (s.onCtx c x f).mem = s.mem := rfl
@[simp] theorem onCtx_poison (s : State) (c x : Nat) (f : Ctx → Ctx) : (s.onCtx c x f).poison = s.poison := rfl
@[simp] theorem onCtx_dies (s : State) (c x : Nat) (f : Ctx → Ctx) : (s.onCtx c x f).dies = s.dies := rfl
@[simp] theorem onCtx_barriers (s : State) (c x : Nat) (f : Ctx → Ctx) : (s.onCtx c x f).barriers = s.barriers := rfl
@[simp] theorem onCtx_queues (s : State) (c x : Nat) (f : Ctx → Ctx) : (s.onCtx c x f).queues = s.queues := rfl
@[simp] theorem onCtx_ports (s : State) (c x : Nat) (f : Ctx → Ctx) : (s.onCtx c x f).ports = s.ports := rfl
@[simp] theorem onCtx_lamp (s : State) (c x : Nat) (f : Ctx → Ctx) : (s.onCtx c x f).lamp = s.lamp := rfl
@[simp] theorem onCtx_windows (s : State) (c x : Nat) (f : Ctx → Ctx) : (s.onCtx c x f).windows = s.windows := rfl
@[simp] theorem onCtx_spaces (s : State) (c x : Nat) (f : Ctx → Ctx) : (s.onCtx c x f).spaces = s.spaces := rfl
@[simp] theorem onCtx_parked (s : State) (c x : Nat) (f : Ctx → Ctx) : (s.onCtx c x f).parked = s.parked := rfl
@[simp] theorem onCtx_net (s : State) (c x : Nat) (f : Ctx → Ctx) : (s.onCtx c x f).net = s.net := rfl
@[simp] theorem onCtx_replies (s : State) (c x : Nat) (f : Ctx → Ctx) : (s.onCtx c x f).replies = s.replies := rfl
@[simp] theorem onCtx_acks (s : State) (c x : Nat) (f : Ctx → Ctx) : (s.onCtx c x f).acks = s.acks := rfl
@[simp] theorem onCtx_nextId (s : State) (c x : Nat) (f : Ctx → Ctx) : (s.onCtx c x f).nextId = s.nextId := rfl
@[simp] theorem onCtx_puts (s : State) (c x : Nat) (f : Ctx → Ctx) : (s.onCtx c x f).puts = s.puts := rfl
@[simp] theorem onCtx_spawns (s : State) (c x : Nat) (f : Ctx → Ctx) : (s.onCtx c x f).spawns = s.spawns := rfl
@[simp] theorem onCtx_logSeq (s : State) (c x : Nat) (f : Ctx → Ctx) : (s.onCtx c x f).logSeq = s.logSeq := rfl
@[simp] theorem onCtx_mapPend (s : State) (c x : Nat) (f : Ctx → Ctx) : (s.onCtx c x f).mapPend = s.mapPend := rfl
@[simp] theorem onCtx_coll (s : State) (c x : Nat) (f : Ctx → Ctx) : (s.onCtx c x f).coll = s.coll := rfl
@[simp] theorem onCtx_groups (s : State) (c x : Nat) (f : Ctx → Ctx) : (s.onCtx c x f).groups = s.groups := rfl
@[simp] theorem onCtx_symbols (s : State) (c x : Nat) (f : Ctx → Ctx) : (s.onCtx c x f).symbols = s.symbols := rfl
@[simp] theorem onCtx_objects (s : State) (c x : Nat) (f : Ctx → Ctx) : (s.onCtx c x f).objects = s.objects := rfl
@[simp] theorem onCtx_ck (s : State) (c x : Nat) (f : Ctx → Ctx) : (s.onCtx c x f).ck = s.ck := rfl
@[simp] theorem onCtx_saved (s : State) (c x : Nat) (f : Ctx → Ctx) : (s.onCtx c x f).saved = s.saved := rfl
@[simp] theorem onCtx_fabric (s : State) (c x : Nat) (f : Ctx → Ctx) : (s.onCtx c x f).fabric = s.fabric := rfl
@[simp] theorem onCtx_mgmt (s : State) (c x : Nat) (f : Ctx → Ctx) : (s.onCtx c x f).mgmt = s.mgmt := rfl
@[simp] theorem onCtx_cxlDown (s : State) (c x : Nat) (f : Ctx → Ctx) : (s.onCtx c x f).cxlDown = s.cxlDown := rfl
@[simp] theorem onCtx_results (s : State) (c x : Nat) (f : Ctx → Ctx) : (s.onCtx c x f).results = s.results := rfl
@[simp] theorem onCtx_agenda (s : State) (c x : Nat) (f : Ctx → Ctx) : (s.onCtx c x f).agenda = s.agenda := rfl
@[simp] theorem onCtx_focus (s : State) (c x : Nat) (f : Ctx → Ctx) : (s.onCtx c x f).focus = s.focus := rfl
@[simp] theorem onCtx_before (s : State) (c x : Nat) (f : Ctx → Ctx) : (s.onCtx c x f).before = s.before := rfl
@[simp] theorem onCtx_mark (s : State) (c x : Nat) (f : Ctx → Ctx) : (s.onCtx c x f).mark = s.mark := rfl
@[simp] theorem onCtx_fresh (s : State) (c x : Nat) (f : Ctx → Ctx) : (s.onCtx c x f).fresh = s.fresh := rfl

/-! State.onCur: only `cores` changes. -/

@[simp] theorem onCur_mem (s : State) (f : Ctx → Ctx) : (s.onCur f).mem = s.mem := rfl
@[simp] theorem onCur_poison (s : State) (f : Ctx → Ctx) : (s.onCur f).poison = s.poison := rfl
@[simp] theorem onCur_dies (s : State) (f : Ctx → Ctx) : (s.onCur f).dies = s.dies := rfl
@[simp] theorem onCur_barriers (s : State) (f : Ctx → Ctx) : (s.onCur f).barriers = s.barriers := rfl
@[simp] theorem onCur_queues (s : State) (f : Ctx → Ctx) : (s.onCur f).queues = s.queues := rfl
@[simp] theorem onCur_ports (s : State) (f : Ctx → Ctx) : (s.onCur f).ports = s.ports := rfl
@[simp] theorem onCur_lamp (s : State) (f : Ctx → Ctx) : (s.onCur f).lamp = s.lamp := rfl
@[simp] theorem onCur_windows (s : State) (f : Ctx → Ctx) : (s.onCur f).windows = s.windows := rfl
@[simp] theorem onCur_spaces (s : State) (f : Ctx → Ctx) : (s.onCur f).spaces = s.spaces := rfl
@[simp] theorem onCur_parked (s : State) (f : Ctx → Ctx) : (s.onCur f).parked = s.parked := rfl
@[simp] theorem onCur_net (s : State) (f : Ctx → Ctx) : (s.onCur f).net = s.net := rfl
@[simp] theorem onCur_replies (s : State) (f : Ctx → Ctx) : (s.onCur f).replies = s.replies := rfl
@[simp] theorem onCur_acks (s : State) (f : Ctx → Ctx) : (s.onCur f).acks = s.acks := rfl
@[simp] theorem onCur_nextId (s : State) (f : Ctx → Ctx) : (s.onCur f).nextId = s.nextId := rfl
@[simp] theorem onCur_puts (s : State) (f : Ctx → Ctx) : (s.onCur f).puts = s.puts := rfl
@[simp] theorem onCur_spawns (s : State) (f : Ctx → Ctx) : (s.onCur f).spawns = s.spawns := rfl
@[simp] theorem onCur_logSeq (s : State) (f : Ctx → Ctx) : (s.onCur f).logSeq = s.logSeq := rfl
@[simp] theorem onCur_mapPend (s : State) (f : Ctx → Ctx) : (s.onCur f).mapPend = s.mapPend := rfl
@[simp] theorem onCur_coll (s : State) (f : Ctx → Ctx) : (s.onCur f).coll = s.coll := rfl
@[simp] theorem onCur_groups (s : State) (f : Ctx → Ctx) : (s.onCur f).groups = s.groups := rfl
@[simp] theorem onCur_symbols (s : State) (f : Ctx → Ctx) : (s.onCur f).symbols = s.symbols := rfl
@[simp] theorem onCur_objects (s : State) (f : Ctx → Ctx) : (s.onCur f).objects = s.objects := rfl
@[simp] theorem onCur_ck (s : State) (f : Ctx → Ctx) : (s.onCur f).ck = s.ck := rfl
@[simp] theorem onCur_saved (s : State) (f : Ctx → Ctx) : (s.onCur f).saved = s.saved := rfl
@[simp] theorem onCur_fabric (s : State) (f : Ctx → Ctx) : (s.onCur f).fabric = s.fabric := rfl
@[simp] theorem onCur_mgmt (s : State) (f : Ctx → Ctx) : (s.onCur f).mgmt = s.mgmt := rfl
@[simp] theorem onCur_cxlDown (s : State) (f : Ctx → Ctx) : (s.onCur f).cxlDown = s.cxlDown := rfl
@[simp] theorem onCur_results (s : State) (f : Ctx → Ctx) : (s.onCur f).results = s.results := rfl
@[simp] theorem onCur_agenda (s : State) (f : Ctx → Ctx) : (s.onCur f).agenda = s.agenda := rfl
@[simp] theorem onCur_focus (s : State) (f : Ctx → Ctx) : (s.onCur f).focus = s.focus := rfl
@[simp] theorem onCur_before (s : State) (f : Ctx → Ctx) : (s.onCur f).before = s.before := rfl
@[simp] theorem onCur_mark (s : State) (f : Ctx → Ctx) : (s.onCur f).mark = s.mark := rfl
@[simp] theorem onCur_fresh (s : State) (f : Ctx → Ctx) : (s.onCur f).fresh = s.fresh := rfl

/-! State.onFc: only `cores` changes. -/

@[simp] theorem onFc_mem (s : State) (f : Core → Core) : (s.onFc f).mem = s.mem := rfl
@[simp] theorem onFc_poison (s : State) (f : Core → Core) : (s.onFc f).poison = s.poison := rfl
@[simp] theorem onFc_dies (s : State) (f : Core → Core) : (s.onFc f).dies = s.dies := rfl
@[simp] theorem onFc_barriers (s : State) (f : Core → Core) : (s.onFc f).barriers = s.barriers := rfl
@[simp] theorem onFc_queues (s : State) (f : Core → Core) : (s.onFc f).queues = s.queues := rfl
@[simp] theorem onFc_ports (s : State) (f : Core → Core) : (s.onFc f).ports = s.ports := rfl
@[simp] theorem onFc_lamp (s : State) (f : Core → Core) : (s.onFc f).lamp = s.lamp := rfl
@[simp] theorem onFc_windows (s : State) (f : Core → Core) : (s.onFc f).windows = s.windows := rfl
@[simp] theorem onFc_spaces (s : State) (f : Core → Core) : (s.onFc f).spaces = s.spaces := rfl
@[simp] theorem onFc_parked (s : State) (f : Core → Core) : (s.onFc f).parked = s.parked := rfl
@[simp] theorem onFc_net (s : State) (f : Core → Core) : (s.onFc f).net = s.net := rfl
@[simp] theorem onFc_replies (s : State) (f : Core → Core) : (s.onFc f).replies = s.replies := rfl
@[simp] theorem onFc_acks (s : State) (f : Core → Core) : (s.onFc f).acks = s.acks := rfl
@[simp] theorem onFc_nextId (s : State) (f : Core → Core) : (s.onFc f).nextId = s.nextId := rfl
@[simp] theorem onFc_puts (s : State) (f : Core → Core) : (s.onFc f).puts = s.puts := rfl
@[simp] theorem onFc_spawns (s : State) (f : Core → Core) : (s.onFc f).spawns = s.spawns := rfl
@[simp] theorem onFc_logSeq (s : State) (f : Core → Core) : (s.onFc f).logSeq = s.logSeq := rfl
@[simp] theorem onFc_mapPend (s : State) (f : Core → Core) : (s.onFc f).mapPend = s.mapPend := rfl
@[simp] theorem onFc_coll (s : State) (f : Core → Core) : (s.onFc f).coll = s.coll := rfl
@[simp] theorem onFc_groups (s : State) (f : Core → Core) : (s.onFc f).groups = s.groups := rfl
@[simp] theorem onFc_symbols (s : State) (f : Core → Core) : (s.onFc f).symbols = s.symbols := rfl
@[simp] theorem onFc_objects (s : State) (f : Core → Core) : (s.onFc f).objects = s.objects := rfl
@[simp] theorem onFc_ck (s : State) (f : Core → Core) : (s.onFc f).ck = s.ck := rfl
@[simp] theorem onFc_saved (s : State) (f : Core → Core) : (s.onFc f).saved = s.saved := rfl
@[simp] theorem onFc_fabric (s : State) (f : Core → Core) : (s.onFc f).fabric = s.fabric := rfl
@[simp] theorem onFc_mgmt (s : State) (f : Core → Core) : (s.onFc f).mgmt = s.mgmt := rfl
@[simp] theorem onFc_cxlDown (s : State) (f : Core → Core) : (s.onFc f).cxlDown = s.cxlDown := rfl
@[simp] theorem onFc_results (s : State) (f : Core → Core) : (s.onFc f).results = s.results := rfl
@[simp] theorem onFc_agenda (s : State) (f : Core → Core) : (s.onFc f).agenda = s.agenda := rfl
@[simp] theorem onFc_focus (s : State) (f : Core → Core) : (s.onFc f).focus = s.focus := rfl
@[simp] theorem onFc_before (s : State) (f : Core → Core) : (s.onFc f).before = s.before := rfl
@[simp] theorem onFc_mark (s : State) (f : Core → Core) : (s.onFc f).mark = s.mark := rfl
@[simp] theorem onFc_fresh (s : State) (f : Core → Core) : (s.onFc f).fresh = s.fresh := rfl

/-! State.onDie: only `dies` changes. -/

@[simp] theorem onDie_mem (s : State) (d : Nat) (f : Die → Die) : (s.onDie d f).mem = s.mem := rfl
@[simp] theorem onDie_poison (s : State) (d : Nat) (f : Die → Die) : (s.onDie d f).poison = s.poison := rfl
@[simp] theorem onDie_cores (s : State) (d : Nat) (f : Die → Die) : (s.onDie d f).cores = s.cores := rfl
@[simp] theorem onDie_barriers (s : State) (d : Nat) (f : Die → Die) : (s.onDie d f).barriers = s.barriers := rfl
@[simp] theorem onDie_queues (s : State) (d : Nat) (f : Die → Die) : (s.onDie d f).queues = s.queues := rfl
@[simp] theorem onDie_ports (s : State) (d : Nat) (f : Die → Die) : (s.onDie d f).ports = s.ports := rfl
@[simp] theorem onDie_lamp (s : State) (d : Nat) (f : Die → Die) : (s.onDie d f).lamp = s.lamp := rfl
@[simp] theorem onDie_windows (s : State) (d : Nat) (f : Die → Die) : (s.onDie d f).windows = s.windows := rfl
@[simp] theorem onDie_spaces (s : State) (d : Nat) (f : Die → Die) : (s.onDie d f).spaces = s.spaces := rfl
@[simp] theorem onDie_parked (s : State) (d : Nat) (f : Die → Die) : (s.onDie d f).parked = s.parked := rfl
@[simp] theorem onDie_net (s : State) (d : Nat) (f : Die → Die) : (s.onDie d f).net = s.net := rfl
@[simp] theorem onDie_replies (s : State) (d : Nat) (f : Die → Die) : (s.onDie d f).replies = s.replies := rfl
@[simp] theorem onDie_acks (s : State) (d : Nat) (f : Die → Die) : (s.onDie d f).acks = s.acks := rfl
@[simp] theorem onDie_nextId (s : State) (d : Nat) (f : Die → Die) : (s.onDie d f).nextId = s.nextId := rfl
@[simp] theorem onDie_puts (s : State) (d : Nat) (f : Die → Die) : (s.onDie d f).puts = s.puts := rfl
@[simp] theorem onDie_spawns (s : State) (d : Nat) (f : Die → Die) : (s.onDie d f).spawns = s.spawns := rfl
@[simp] theorem onDie_logSeq (s : State) (d : Nat) (f : Die → Die) : (s.onDie d f).logSeq = s.logSeq := rfl
@[simp] theorem onDie_mapPend (s : State) (d : Nat) (f : Die → Die) : (s.onDie d f).mapPend = s.mapPend := rfl
@[simp] theorem onDie_coll (s : State) (d : Nat) (f : Die → Die) : (s.onDie d f).coll = s.coll := rfl
@[simp] theorem onDie_groups (s : State) (d : Nat) (f : Die → Die) : (s.onDie d f).groups = s.groups := rfl
@[simp] theorem onDie_symbols (s : State) (d : Nat) (f : Die → Die) : (s.onDie d f).symbols = s.symbols := rfl
@[simp] theorem onDie_objects (s : State) (d : Nat) (f : Die → Die) : (s.onDie d f).objects = s.objects := rfl
@[simp] theorem onDie_ck (s : State) (d : Nat) (f : Die → Die) : (s.onDie d f).ck = s.ck := rfl
@[simp] theorem onDie_saved (s : State) (d : Nat) (f : Die → Die) : (s.onDie d f).saved = s.saved := rfl
@[simp] theorem onDie_fabric (s : State) (d : Nat) (f : Die → Die) : (s.onDie d f).fabric = s.fabric := rfl
@[simp] theorem onDie_mgmt (s : State) (d : Nat) (f : Die → Die) : (s.onDie d f).mgmt = s.mgmt := rfl
@[simp] theorem onDie_cxlDown (s : State) (d : Nat) (f : Die → Die) : (s.onDie d f).cxlDown = s.cxlDown := rfl
@[simp] theorem onDie_results (s : State) (d : Nat) (f : Die → Die) : (s.onDie d f).results = s.results := rfl
@[simp] theorem onDie_agenda (s : State) (d : Nat) (f : Die → Die) : (s.onDie d f).agenda = s.agenda := rfl
@[simp] theorem onDie_focus (s : State) (d : Nat) (f : Die → Die) : (s.onDie d f).focus = s.focus := rfl
@[simp] theorem onDie_before (s : State) (d : Nat) (f : Die → Die) : (s.onDie d f).before = s.before := rfl
@[simp] theorem onDie_mark (s : State) (d : Nat) (f : Die → Die) : (s.onDie d f).mark = s.mark := rfl
@[simp] theorem onDie_fresh (s : State) (d : Nat) (f : Die → Die) : (s.onDie d f).fresh = s.fresh := rfl

/-! State.onPort: only `ports` changes. -/

@[simp] theorem onPort_mem (s : State) (p : Nat) (f : Port → Port) : (s.onPort p f).mem = s.mem := rfl
@[simp] theorem onPort_poison (s : State) (p : Nat) (f : Port → Port) : (s.onPort p f).poison = s.poison := rfl
@[simp] theorem onPort_cores (s : State) (p : Nat) (f : Port → Port) : (s.onPort p f).cores = s.cores := rfl
@[simp] theorem onPort_dies (s : State) (p : Nat) (f : Port → Port) : (s.onPort p f).dies = s.dies := rfl
@[simp] theorem onPort_barriers (s : State) (p : Nat) (f : Port → Port) : (s.onPort p f).barriers = s.barriers := rfl
@[simp] theorem onPort_queues (s : State) (p : Nat) (f : Port → Port) : (s.onPort p f).queues = s.queues := rfl
@[simp] theorem onPort_lamp (s : State) (p : Nat) (f : Port → Port) : (s.onPort p f).lamp = s.lamp := rfl
@[simp] theorem onPort_windows (s : State) (p : Nat) (f : Port → Port) : (s.onPort p f).windows = s.windows := rfl
@[simp] theorem onPort_spaces (s : State) (p : Nat) (f : Port → Port) : (s.onPort p f).spaces = s.spaces := rfl
@[simp] theorem onPort_parked (s : State) (p : Nat) (f : Port → Port) : (s.onPort p f).parked = s.parked := rfl
@[simp] theorem onPort_net (s : State) (p : Nat) (f : Port → Port) : (s.onPort p f).net = s.net := rfl
@[simp] theorem onPort_replies (s : State) (p : Nat) (f : Port → Port) : (s.onPort p f).replies = s.replies := rfl
@[simp] theorem onPort_acks (s : State) (p : Nat) (f : Port → Port) : (s.onPort p f).acks = s.acks := rfl
@[simp] theorem onPort_nextId (s : State) (p : Nat) (f : Port → Port) : (s.onPort p f).nextId = s.nextId := rfl
@[simp] theorem onPort_puts (s : State) (p : Nat) (f : Port → Port) : (s.onPort p f).puts = s.puts := rfl
@[simp] theorem onPort_spawns (s : State) (p : Nat) (f : Port → Port) : (s.onPort p f).spawns = s.spawns := rfl
@[simp] theorem onPort_logSeq (s : State) (p : Nat) (f : Port → Port) : (s.onPort p f).logSeq = s.logSeq := rfl
@[simp] theorem onPort_mapPend (s : State) (p : Nat) (f : Port → Port) : (s.onPort p f).mapPend = s.mapPend := rfl
@[simp] theorem onPort_coll (s : State) (p : Nat) (f : Port → Port) : (s.onPort p f).coll = s.coll := rfl
@[simp] theorem onPort_groups (s : State) (p : Nat) (f : Port → Port) : (s.onPort p f).groups = s.groups := rfl
@[simp] theorem onPort_symbols (s : State) (p : Nat) (f : Port → Port) : (s.onPort p f).symbols = s.symbols := rfl
@[simp] theorem onPort_objects (s : State) (p : Nat) (f : Port → Port) : (s.onPort p f).objects = s.objects := rfl
@[simp] theorem onPort_ck (s : State) (p : Nat) (f : Port → Port) : (s.onPort p f).ck = s.ck := rfl
@[simp] theorem onPort_saved (s : State) (p : Nat) (f : Port → Port) : (s.onPort p f).saved = s.saved := rfl
@[simp] theorem onPort_fabric (s : State) (p : Nat) (f : Port → Port) : (s.onPort p f).fabric = s.fabric := rfl
@[simp] theorem onPort_mgmt (s : State) (p : Nat) (f : Port → Port) : (s.onPort p f).mgmt = s.mgmt := rfl
@[simp] theorem onPort_cxlDown (s : State) (p : Nat) (f : Port → Port) : (s.onPort p f).cxlDown = s.cxlDown := rfl
@[simp] theorem onPort_results (s : State) (p : Nat) (f : Port → Port) : (s.onPort p f).results = s.results := rfl
@[simp] theorem onPort_agenda (s : State) (p : Nat) (f : Port → Port) : (s.onPort p f).agenda = s.agenda := rfl
@[simp] theorem onPort_focus (s : State) (p : Nat) (f : Port → Port) : (s.onPort p f).focus = s.focus := rfl
@[simp] theorem onPort_before (s : State) (p : Nat) (f : Port → Port) : (s.onPort p f).before = s.before := rfl
@[simp] theorem onPort_mark (s : State) (p : Nat) (f : Port → Port) : (s.onPort p f).mark = s.mark := rfl
@[simp] theorem onPort_fresh (s : State) (p : Nat) (f : Port → Port) : (s.onPort p f).fresh = s.fresh := rfl

/-! State.onQueue: only `queues` changes. -/

@[simp] theorem onQueue_mem (s : State) (q : Nat) (f : Queue → Queue) : (s.onQueue q f).mem = s.mem := rfl
@[simp] theorem onQueue_poison (s : State) (q : Nat) (f : Queue → Queue) : (s.onQueue q f).poison = s.poison := rfl
@[simp] theorem onQueue_cores (s : State) (q : Nat) (f : Queue → Queue) : (s.onQueue q f).cores = s.cores := rfl
@[simp] theorem onQueue_dies (s : State) (q : Nat) (f : Queue → Queue) : (s.onQueue q f).dies = s.dies := rfl
@[simp] theorem onQueue_barriers (s : State) (q : Nat) (f : Queue → Queue) : (s.onQueue q f).barriers = s.barriers := rfl
@[simp] theorem onQueue_ports (s : State) (q : Nat) (f : Queue → Queue) : (s.onQueue q f).ports = s.ports := rfl
@[simp] theorem onQueue_lamp (s : State) (q : Nat) (f : Queue → Queue) : (s.onQueue q f).lamp = s.lamp := rfl
@[simp] theorem onQueue_windows (s : State) (q : Nat) (f : Queue → Queue) : (s.onQueue q f).windows = s.windows := rfl
@[simp] theorem onQueue_spaces (s : State) (q : Nat) (f : Queue → Queue) : (s.onQueue q f).spaces = s.spaces := rfl
@[simp] theorem onQueue_parked (s : State) (q : Nat) (f : Queue → Queue) : (s.onQueue q f).parked = s.parked := rfl
@[simp] theorem onQueue_net (s : State) (q : Nat) (f : Queue → Queue) : (s.onQueue q f).net = s.net := rfl
@[simp] theorem onQueue_replies (s : State) (q : Nat) (f : Queue → Queue) : (s.onQueue q f).replies = s.replies := rfl
@[simp] theorem onQueue_acks (s : State) (q : Nat) (f : Queue → Queue) : (s.onQueue q f).acks = s.acks := rfl
@[simp] theorem onQueue_nextId (s : State) (q : Nat) (f : Queue → Queue) : (s.onQueue q f).nextId = s.nextId := rfl
@[simp] theorem onQueue_puts (s : State) (q : Nat) (f : Queue → Queue) : (s.onQueue q f).puts = s.puts := rfl
@[simp] theorem onQueue_spawns (s : State) (q : Nat) (f : Queue → Queue) : (s.onQueue q f).spawns = s.spawns := rfl
@[simp] theorem onQueue_logSeq (s : State) (q : Nat) (f : Queue → Queue) : (s.onQueue q f).logSeq = s.logSeq := rfl
@[simp] theorem onQueue_mapPend (s : State) (q : Nat) (f : Queue → Queue) : (s.onQueue q f).mapPend = s.mapPend := rfl
@[simp] theorem onQueue_coll (s : State) (q : Nat) (f : Queue → Queue) : (s.onQueue q f).coll = s.coll := rfl
@[simp] theorem onQueue_groups (s : State) (q : Nat) (f : Queue → Queue) : (s.onQueue q f).groups = s.groups := rfl
@[simp] theorem onQueue_symbols (s : State) (q : Nat) (f : Queue → Queue) : (s.onQueue q f).symbols = s.symbols := rfl
@[simp] theorem onQueue_objects (s : State) (q : Nat) (f : Queue → Queue) : (s.onQueue q f).objects = s.objects := rfl
@[simp] theorem onQueue_ck (s : State) (q : Nat) (f : Queue → Queue) : (s.onQueue q f).ck = s.ck := rfl
@[simp] theorem onQueue_saved (s : State) (q : Nat) (f : Queue → Queue) : (s.onQueue q f).saved = s.saved := rfl
@[simp] theorem onQueue_fabric (s : State) (q : Nat) (f : Queue → Queue) : (s.onQueue q f).fabric = s.fabric := rfl
@[simp] theorem onQueue_mgmt (s : State) (q : Nat) (f : Queue → Queue) : (s.onQueue q f).mgmt = s.mgmt := rfl
@[simp] theorem onQueue_cxlDown (s : State) (q : Nat) (f : Queue → Queue) : (s.onQueue q f).cxlDown = s.cxlDown := rfl
@[simp] theorem onQueue_results (s : State) (q : Nat) (f : Queue → Queue) : (s.onQueue q f).results = s.results := rfl
@[simp] theorem onQueue_agenda (s : State) (q : Nat) (f : Queue → Queue) : (s.onQueue q f).agenda = s.agenda := rfl
@[simp] theorem onQueue_focus (s : State) (q : Nat) (f : Queue → Queue) : (s.onQueue q f).focus = s.focus := rfl
@[simp] theorem onQueue_before (s : State) (q : Nat) (f : Queue → Queue) : (s.onQueue q f).before = s.before := rfl
@[simp] theorem onQueue_mark (s : State) (q : Nat) (f : Queue → Queue) : (s.onQueue q f).mark = s.mark := rfl
@[simp] theorem onQueue_fresh (s : State) (q : Nat) (f : Queue → Queue) : (s.onQueue q f).fresh = s.fresh := rfl

/-! State.onWindow: only `windows` changes. -/

@[simp] theorem onWindow_mem (s : State) (w : Nat) (f : Window → Window) : (s.onWindow w f).mem = s.mem := rfl
@[simp] theorem onWindow_poison (s : State) (w : Nat) (f : Window → Window) : (s.onWindow w f).poison = s.poison := rfl
@[simp] theorem onWindow_cores (s : State) (w : Nat) (f : Window → Window) : (s.onWindow w f).cores = s.cores := rfl
@[simp] theorem onWindow_dies (s : State) (w : Nat) (f : Window → Window) : (s.onWindow w f).dies = s.dies := rfl
@[simp] theorem onWindow_barriers (s : State) (w : Nat) (f : Window → Window) : (s.onWindow w f).barriers = s.barriers := rfl
@[simp] theorem onWindow_queues (s : State) (w : Nat) (f : Window → Window) : (s.onWindow w f).queues = s.queues := rfl
@[simp] theorem onWindow_ports (s : State) (w : Nat) (f : Window → Window) : (s.onWindow w f).ports = s.ports := rfl
@[simp] theorem onWindow_lamp (s : State) (w : Nat) (f : Window → Window) : (s.onWindow w f).lamp = s.lamp := rfl
@[simp] theorem onWindow_spaces (s : State) (w : Nat) (f : Window → Window) : (s.onWindow w f).spaces = s.spaces := rfl
@[simp] theorem onWindow_parked (s : State) (w : Nat) (f : Window → Window) : (s.onWindow w f).parked = s.parked := rfl
@[simp] theorem onWindow_net (s : State) (w : Nat) (f : Window → Window) : (s.onWindow w f).net = s.net := rfl
@[simp] theorem onWindow_replies (s : State) (w : Nat) (f : Window → Window) : (s.onWindow w f).replies = s.replies := rfl
@[simp] theorem onWindow_acks (s : State) (w : Nat) (f : Window → Window) : (s.onWindow w f).acks = s.acks := rfl
@[simp] theorem onWindow_nextId (s : State) (w : Nat) (f : Window → Window) : (s.onWindow w f).nextId = s.nextId := rfl
@[simp] theorem onWindow_puts (s : State) (w : Nat) (f : Window → Window) : (s.onWindow w f).puts = s.puts := rfl
@[simp] theorem onWindow_spawns (s : State) (w : Nat) (f : Window → Window) : (s.onWindow w f).spawns = s.spawns := rfl
@[simp] theorem onWindow_logSeq (s : State) (w : Nat) (f : Window → Window) : (s.onWindow w f).logSeq = s.logSeq := rfl
@[simp] theorem onWindow_mapPend (s : State) (w : Nat) (f : Window → Window) : (s.onWindow w f).mapPend = s.mapPend := rfl
@[simp] theorem onWindow_coll (s : State) (w : Nat) (f : Window → Window) : (s.onWindow w f).coll = s.coll := rfl
@[simp] theorem onWindow_groups (s : State) (w : Nat) (f : Window → Window) : (s.onWindow w f).groups = s.groups := rfl
@[simp] theorem onWindow_symbols (s : State) (w : Nat) (f : Window → Window) : (s.onWindow w f).symbols = s.symbols := rfl
@[simp] theorem onWindow_objects (s : State) (w : Nat) (f : Window → Window) : (s.onWindow w f).objects = s.objects := rfl
@[simp] theorem onWindow_ck (s : State) (w : Nat) (f : Window → Window) : (s.onWindow w f).ck = s.ck := rfl
@[simp] theorem onWindow_saved (s : State) (w : Nat) (f : Window → Window) : (s.onWindow w f).saved = s.saved := rfl
@[simp] theorem onWindow_fabric (s : State) (w : Nat) (f : Window → Window) : (s.onWindow w f).fabric = s.fabric := rfl
@[simp] theorem onWindow_mgmt (s : State) (w : Nat) (f : Window → Window) : (s.onWindow w f).mgmt = s.mgmt := rfl
@[simp] theorem onWindow_cxlDown (s : State) (w : Nat) (f : Window → Window) : (s.onWindow w f).cxlDown = s.cxlDown := rfl
@[simp] theorem onWindow_results (s : State) (w : Nat) (f : Window → Window) : (s.onWindow w f).results = s.results := rfl
@[simp] theorem onWindow_agenda (s : State) (w : Nat) (f : Window → Window) : (s.onWindow w f).agenda = s.agenda := rfl
@[simp] theorem onWindow_focus (s : State) (w : Nat) (f : Window → Window) : (s.onWindow w f).focus = s.focus := rfl
@[simp] theorem onWindow_before (s : State) (w : Nat) (f : Window → Window) : (s.onWindow w f).before = s.before := rfl
@[simp] theorem onWindow_mark (s : State) (w : Nat) (f : Window → Window) : (s.onWindow w f).mark = s.mark := rfl
@[simp] theorem onWindow_fresh (s : State) (w : Nat) (f : Window → Window) : (s.onWindow w f).fresh = s.fresh := rfl

/-! State.onFabric: only `fabric` changes. -/

@[simp] theorem onFabric_mem (s : State) (f : Fabric → Fabric) : (s.onFabric f).mem = s.mem := rfl
@[simp] theorem onFabric_poison (s : State) (f : Fabric → Fabric) : (s.onFabric f).poison = s.poison := rfl
@[simp] theorem onFabric_cores (s : State) (f : Fabric → Fabric) : (s.onFabric f).cores = s.cores := rfl
@[simp] theorem onFabric_dies (s : State) (f : Fabric → Fabric) : (s.onFabric f).dies = s.dies := rfl
@[simp] theorem onFabric_barriers (s : State) (f : Fabric → Fabric) : (s.onFabric f).barriers = s.barriers := rfl
@[simp] theorem onFabric_queues (s : State) (f : Fabric → Fabric) : (s.onFabric f).queues = s.queues := rfl
@[simp] theorem onFabric_ports (s : State) (f : Fabric → Fabric) : (s.onFabric f).ports = s.ports := rfl
@[simp] theorem onFabric_lamp (s : State) (f : Fabric → Fabric) : (s.onFabric f).lamp = s.lamp := rfl
@[simp] theorem onFabric_windows (s : State) (f : Fabric → Fabric) : (s.onFabric f).windows = s.windows := rfl
@[simp] theorem onFabric_spaces (s : State) (f : Fabric → Fabric) : (s.onFabric f).spaces = s.spaces := rfl
@[simp] theorem onFabric_parked (s : State) (f : Fabric → Fabric) : (s.onFabric f).parked = s.parked := rfl
@[simp] theorem onFabric_net (s : State) (f : Fabric → Fabric) : (s.onFabric f).net = s.net := rfl
@[simp] theorem onFabric_replies (s : State) (f : Fabric → Fabric) : (s.onFabric f).replies = s.replies := rfl
@[simp] theorem onFabric_acks (s : State) (f : Fabric → Fabric) : (s.onFabric f).acks = s.acks := rfl
@[simp] theorem onFabric_nextId (s : State) (f : Fabric → Fabric) : (s.onFabric f).nextId = s.nextId := rfl
@[simp] theorem onFabric_puts (s : State) (f : Fabric → Fabric) : (s.onFabric f).puts = s.puts := rfl
@[simp] theorem onFabric_spawns (s : State) (f : Fabric → Fabric) : (s.onFabric f).spawns = s.spawns := rfl
@[simp] theorem onFabric_logSeq (s : State) (f : Fabric → Fabric) : (s.onFabric f).logSeq = s.logSeq := rfl
@[simp] theorem onFabric_mapPend (s : State) (f : Fabric → Fabric) : (s.onFabric f).mapPend = s.mapPend := rfl
@[simp] theorem onFabric_coll (s : State) (f : Fabric → Fabric) : (s.onFabric f).coll = s.coll := rfl
@[simp] theorem onFabric_groups (s : State) (f : Fabric → Fabric) : (s.onFabric f).groups = s.groups := rfl
@[simp] theorem onFabric_symbols (s : State) (f : Fabric → Fabric) : (s.onFabric f).symbols = s.symbols := rfl
@[simp] theorem onFabric_objects (s : State) (f : Fabric → Fabric) : (s.onFabric f).objects = s.objects := rfl
@[simp] theorem onFabric_ck (s : State) (f : Fabric → Fabric) : (s.onFabric f).ck = s.ck := rfl
@[simp] theorem onFabric_saved (s : State) (f : Fabric → Fabric) : (s.onFabric f).saved = s.saved := rfl
@[simp] theorem onFabric_mgmt (s : State) (f : Fabric → Fabric) : (s.onFabric f).mgmt = s.mgmt := rfl
@[simp] theorem onFabric_cxlDown (s : State) (f : Fabric → Fabric) : (s.onFabric f).cxlDown = s.cxlDown := rfl
@[simp] theorem onFabric_results (s : State) (f : Fabric → Fabric) : (s.onFabric f).results = s.results := rfl
@[simp] theorem onFabric_agenda (s : State) (f : Fabric → Fabric) : (s.onFabric f).agenda = s.agenda := rfl
@[simp] theorem onFabric_focus (s : State) (f : Fabric → Fabric) : (s.onFabric f).focus = s.focus := rfl
@[simp] theorem onFabric_before (s : State) (f : Fabric → Fabric) : (s.onFabric f).before = s.before := rfl
@[simp] theorem onFabric_mark (s : State) (f : Fabric → Fabric) : (s.onFabric f).mark = s.mark := rfl
@[simp] theorem onFabric_fresh (s : State) (f : Fabric → Fabric) : (s.onFabric f).fresh = s.fresh := rfl

/-! State.poke: only `mem` changes. -/

@[simp] theorem poke_poison (s : State) (k : Nat) (bs : List Byte) : (s.poke k bs).poison = s.poison := rfl
@[simp] theorem poke_cores (s : State) (k : Nat) (bs : List Byte) : (s.poke k bs).cores = s.cores := rfl
@[simp] theorem poke_dies (s : State) (k : Nat) (bs : List Byte) : (s.poke k bs).dies = s.dies := rfl
@[simp] theorem poke_barriers (s : State) (k : Nat) (bs : List Byte) : (s.poke k bs).barriers = s.barriers := rfl
@[simp] theorem poke_queues (s : State) (k : Nat) (bs : List Byte) : (s.poke k bs).queues = s.queues := rfl
@[simp] theorem poke_ports (s : State) (k : Nat) (bs : List Byte) : (s.poke k bs).ports = s.ports := rfl
@[simp] theorem poke_lamp (s : State) (k : Nat) (bs : List Byte) : (s.poke k bs).lamp = s.lamp := rfl
@[simp] theorem poke_windows (s : State) (k : Nat) (bs : List Byte) : (s.poke k bs).windows = s.windows := rfl
@[simp] theorem poke_spaces (s : State) (k : Nat) (bs : List Byte) : (s.poke k bs).spaces = s.spaces := rfl
@[simp] theorem poke_parked (s : State) (k : Nat) (bs : List Byte) : (s.poke k bs).parked = s.parked := rfl
@[simp] theorem poke_net (s : State) (k : Nat) (bs : List Byte) : (s.poke k bs).net = s.net := rfl
@[simp] theorem poke_replies (s : State) (k : Nat) (bs : List Byte) : (s.poke k bs).replies = s.replies := rfl
@[simp] theorem poke_acks (s : State) (k : Nat) (bs : List Byte) : (s.poke k bs).acks = s.acks := rfl
@[simp] theorem poke_nextId (s : State) (k : Nat) (bs : List Byte) : (s.poke k bs).nextId = s.nextId := rfl
@[simp] theorem poke_puts (s : State) (k : Nat) (bs : List Byte) : (s.poke k bs).puts = s.puts := rfl
@[simp] theorem poke_spawns (s : State) (k : Nat) (bs : List Byte) : (s.poke k bs).spawns = s.spawns := rfl
@[simp] theorem poke_logSeq (s : State) (k : Nat) (bs : List Byte) : (s.poke k bs).logSeq = s.logSeq := rfl
@[simp] theorem poke_mapPend (s : State) (k : Nat) (bs : List Byte) : (s.poke k bs).mapPend = s.mapPend := rfl
@[simp] theorem poke_coll (s : State) (k : Nat) (bs : List Byte) : (s.poke k bs).coll = s.coll := rfl
@[simp] theorem poke_groups (s : State) (k : Nat) (bs : List Byte) : (s.poke k bs).groups = s.groups := rfl
@[simp] theorem poke_symbols (s : State) (k : Nat) (bs : List Byte) : (s.poke k bs).symbols = s.symbols := rfl
@[simp] theorem poke_objects (s : State) (k : Nat) (bs : List Byte) : (s.poke k bs).objects = s.objects := rfl
@[simp] theorem poke_ck (s : State) (k : Nat) (bs : List Byte) : (s.poke k bs).ck = s.ck := rfl
@[simp] theorem poke_saved (s : State) (k : Nat) (bs : List Byte) : (s.poke k bs).saved = s.saved := rfl
@[simp] theorem poke_fabric (s : State) (k : Nat) (bs : List Byte) : (s.poke k bs).fabric = s.fabric := rfl
@[simp] theorem poke_mgmt (s : State) (k : Nat) (bs : List Byte) : (s.poke k bs).mgmt = s.mgmt := rfl
@[simp] theorem poke_cxlDown (s : State) (k : Nat) (bs : List Byte) : (s.poke k bs).cxlDown = s.cxlDown := rfl
@[simp] theorem poke_results (s : State) (k : Nat) (bs : List Byte) : (s.poke k bs).results = s.results := rfl
@[simp] theorem poke_agenda (s : State) (k : Nat) (bs : List Byte) : (s.poke k bs).agenda = s.agenda := rfl
@[simp] theorem poke_focus (s : State) (k : Nat) (bs : List Byte) : (s.poke k bs).focus = s.focus := rfl
@[simp] theorem poke_before (s : State) (k : Nat) (bs : List Byte) : (s.poke k bs).before = s.before := rfl
@[simp] theorem poke_mark (s : State) (k : Nat) (bs : List Byte) : (s.poke k bs).mark = s.mark := rfl
@[simp] theorem poke_fresh (s : State) (k : Nat) (bs : List Byte) : (s.poke k bs).fresh = s.fresh := rfl

/-! State.postEvent: only `dies` changes. -/

@[simp] theorem postEvent_mem (s : State) (d kind : Nat) (ws : List Word) : (s.postEvent d kind ws).mem = s.mem := rfl
@[simp] theorem postEvent_poison (s : State) (d kind : Nat) (ws : List Word) : (s.postEvent d kind ws).poison = s.poison := rfl
@[simp] theorem postEvent_cores (s : State) (d kind : Nat) (ws : List Word) : (s.postEvent d kind ws).cores = s.cores := rfl
@[simp] theorem postEvent_barriers (s : State) (d kind : Nat) (ws : List Word) : (s.postEvent d kind ws).barriers = s.barriers := rfl
@[simp] theorem postEvent_queues (s : State) (d kind : Nat) (ws : List Word) : (s.postEvent d kind ws).queues = s.queues := rfl
@[simp] theorem postEvent_ports (s : State) (d kind : Nat) (ws : List Word) : (s.postEvent d kind ws).ports = s.ports := rfl
@[simp] theorem postEvent_lamp (s : State) (d kind : Nat) (ws : List Word) : (s.postEvent d kind ws).lamp = s.lamp := rfl
@[simp] theorem postEvent_windows (s : State) (d kind : Nat) (ws : List Word) : (s.postEvent d kind ws).windows = s.windows := rfl
@[simp] theorem postEvent_spaces (s : State) (d kind : Nat) (ws : List Word) : (s.postEvent d kind ws).spaces = s.spaces := rfl
@[simp] theorem postEvent_parked (s : State) (d kind : Nat) (ws : List Word) : (s.postEvent d kind ws).parked = s.parked := rfl
@[simp] theorem postEvent_net (s : State) (d kind : Nat) (ws : List Word) : (s.postEvent d kind ws).net = s.net := rfl
@[simp] theorem postEvent_replies (s : State) (d kind : Nat) (ws : List Word) : (s.postEvent d kind ws).replies = s.replies := rfl
@[simp] theorem postEvent_acks (s : State) (d kind : Nat) (ws : List Word) : (s.postEvent d kind ws).acks = s.acks := rfl
@[simp] theorem postEvent_nextId (s : State) (d kind : Nat) (ws : List Word) : (s.postEvent d kind ws).nextId = s.nextId := rfl
@[simp] theorem postEvent_puts (s : State) (d kind : Nat) (ws : List Word) : (s.postEvent d kind ws).puts = s.puts := rfl
@[simp] theorem postEvent_spawns (s : State) (d kind : Nat) (ws : List Word) : (s.postEvent d kind ws).spawns = s.spawns := rfl
@[simp] theorem postEvent_logSeq (s : State) (d kind : Nat) (ws : List Word) : (s.postEvent d kind ws).logSeq = s.logSeq := rfl
@[simp] theorem postEvent_mapPend (s : State) (d kind : Nat) (ws : List Word) : (s.postEvent d kind ws).mapPend = s.mapPend := rfl
@[simp] theorem postEvent_coll (s : State) (d kind : Nat) (ws : List Word) : (s.postEvent d kind ws).coll = s.coll := rfl
@[simp] theorem postEvent_groups (s : State) (d kind : Nat) (ws : List Word) : (s.postEvent d kind ws).groups = s.groups := rfl
@[simp] theorem postEvent_symbols (s : State) (d kind : Nat) (ws : List Word) : (s.postEvent d kind ws).symbols = s.symbols := rfl
@[simp] theorem postEvent_objects (s : State) (d kind : Nat) (ws : List Word) : (s.postEvent d kind ws).objects = s.objects := rfl
@[simp] theorem postEvent_ck (s : State) (d kind : Nat) (ws : List Word) : (s.postEvent d kind ws).ck = s.ck := rfl
@[simp] theorem postEvent_saved (s : State) (d kind : Nat) (ws : List Word) : (s.postEvent d kind ws).saved = s.saved := rfl
@[simp] theorem postEvent_fabric (s : State) (d kind : Nat) (ws : List Word) : (s.postEvent d kind ws).fabric = s.fabric := rfl
@[simp] theorem postEvent_mgmt (s : State) (d kind : Nat) (ws : List Word) : (s.postEvent d kind ws).mgmt = s.mgmt := rfl
@[simp] theorem postEvent_cxlDown (s : State) (d kind : Nat) (ws : List Word) : (s.postEvent d kind ws).cxlDown = s.cxlDown := rfl
@[simp] theorem postEvent_results (s : State) (d kind : Nat) (ws : List Word) : (s.postEvent d kind ws).results = s.results := rfl
@[simp] theorem postEvent_agenda (s : State) (d kind : Nat) (ws : List Word) : (s.postEvent d kind ws).agenda = s.agenda := rfl
@[simp] theorem postEvent_focus (s : State) (d kind : Nat) (ws : List Word) : (s.postEvent d kind ws).focus = s.focus := rfl
@[simp] theorem postEvent_before (s : State) (d kind : Nat) (ws : List Word) : (s.postEvent d kind ws).before = s.before := rfl
@[simp] theorem postEvent_mark (s : State) (d kind : Nat) (ws : List Word) : (s.postEvent d kind ws).mark = s.mark := rfl
@[simp] theorem postEvent_fresh (s : State) (d kind : Nat) (ws : List Word) : (s.postEvent d kind ws).fresh = s.fresh := rfl

/-! State.postPort: only `ports` changes. -/

@[simp] theorem postPort_mem (s : State) (p a b q : Nat) (ws : List Word) : (s.postPort p a b q ws).mem = s.mem := rfl
@[simp] theorem postPort_poison (s : State) (p a b q : Nat) (ws : List Word) : (s.postPort p a b q ws).poison = s.poison := rfl
@[simp] theorem postPort_cores (s : State) (p a b q : Nat) (ws : List Word) : (s.postPort p a b q ws).cores = s.cores := rfl
@[simp] theorem postPort_dies (s : State) (p a b q : Nat) (ws : List Word) : (s.postPort p a b q ws).dies = s.dies := rfl
@[simp] theorem postPort_barriers (s : State) (p a b q : Nat) (ws : List Word) : (s.postPort p a b q ws).barriers = s.barriers := rfl
@[simp] theorem postPort_queues (s : State) (p a b q : Nat) (ws : List Word) : (s.postPort p a b q ws).queues = s.queues := rfl
@[simp] theorem postPort_lamp (s : State) (p a b q : Nat) (ws : List Word) : (s.postPort p a b q ws).lamp = s.lamp := rfl
@[simp] theorem postPort_windows (s : State) (p a b q : Nat) (ws : List Word) : (s.postPort p a b q ws).windows = s.windows := rfl
@[simp] theorem postPort_spaces (s : State) (p a b q : Nat) (ws : List Word) : (s.postPort p a b q ws).spaces = s.spaces := rfl
@[simp] theorem postPort_parked (s : State) (p a b q : Nat) (ws : List Word) : (s.postPort p a b q ws).parked = s.parked := rfl
@[simp] theorem postPort_net (s : State) (p a b q : Nat) (ws : List Word) : (s.postPort p a b q ws).net = s.net := rfl
@[simp] theorem postPort_replies (s : State) (p a b q : Nat) (ws : List Word) : (s.postPort p a b q ws).replies = s.replies := rfl
@[simp] theorem postPort_acks (s : State) (p a b q : Nat) (ws : List Word) : (s.postPort p a b q ws).acks = s.acks := rfl
@[simp] theorem postPort_nextId (s : State) (p a b q : Nat) (ws : List Word) : (s.postPort p a b q ws).nextId = s.nextId := rfl
@[simp] theorem postPort_puts (s : State) (p a b q : Nat) (ws : List Word) : (s.postPort p a b q ws).puts = s.puts := rfl
@[simp] theorem postPort_spawns (s : State) (p a b q : Nat) (ws : List Word) : (s.postPort p a b q ws).spawns = s.spawns := rfl
@[simp] theorem postPort_logSeq (s : State) (p a b q : Nat) (ws : List Word) : (s.postPort p a b q ws).logSeq = s.logSeq := rfl
@[simp] theorem postPort_mapPend (s : State) (p a b q : Nat) (ws : List Word) : (s.postPort p a b q ws).mapPend = s.mapPend := rfl
@[simp] theorem postPort_coll (s : State) (p a b q : Nat) (ws : List Word) : (s.postPort p a b q ws).coll = s.coll := rfl
@[simp] theorem postPort_groups (s : State) (p a b q : Nat) (ws : List Word) : (s.postPort p a b q ws).groups = s.groups := rfl
@[simp] theorem postPort_symbols (s : State) (p a b q : Nat) (ws : List Word) : (s.postPort p a b q ws).symbols = s.symbols := rfl
@[simp] theorem postPort_objects (s : State) (p a b q : Nat) (ws : List Word) : (s.postPort p a b q ws).objects = s.objects := rfl
@[simp] theorem postPort_ck (s : State) (p a b q : Nat) (ws : List Word) : (s.postPort p a b q ws).ck = s.ck := rfl
@[simp] theorem postPort_saved (s : State) (p a b q : Nat) (ws : List Word) : (s.postPort p a b q ws).saved = s.saved := rfl
@[simp] theorem postPort_fabric (s : State) (p a b q : Nat) (ws : List Word) : (s.postPort p a b q ws).fabric = s.fabric := rfl
@[simp] theorem postPort_mgmt (s : State) (p a b q : Nat) (ws : List Word) : (s.postPort p a b q ws).mgmt = s.mgmt := rfl
@[simp] theorem postPort_cxlDown (s : State) (p a b q : Nat) (ws : List Word) : (s.postPort p a b q ws).cxlDown = s.cxlDown := rfl
@[simp] theorem postPort_results (s : State) (p a b q : Nat) (ws : List Word) : (s.postPort p a b q ws).results = s.results := rfl
@[simp] theorem postPort_agenda (s : State) (p a b q : Nat) (ws : List Word) : (s.postPort p a b q ws).agenda = s.agenda := rfl
@[simp] theorem postPort_focus (s : State) (p a b q : Nat) (ws : List Word) : (s.postPort p a b q ws).focus = s.focus := rfl
@[simp] theorem postPort_before (s : State) (p a b q : Nat) (ws : List Word) : (s.postPort p a b q ws).before = s.before := rfl
@[simp] theorem postPort_mark (s : State) (p a b q : Nat) (ws : List Word) : (s.postPort p a b q ws).mark = s.mark := rfl
@[simp] theorem postPort_fresh (s : State) (p a b q : Nat) (ws : List Word) : (s.postPort p a b q ws).fresh = s.fresh := rfl

/-! What is read back. -/

@[simp] theorem core_setCore (s : State) (c d : Nat) (k : Core) : (s.setCore c k).core d = if c = d then k else s.core d := by
  simp [State.core, State.setCore, Tab.get_set]

@[simp] theorem core_onCore (s : State) (c d : Nat) (f : Core → Core) :
    (s.onCore c f).core d = if c = d then f (s.core d) else s.core d := by
  by_cases h : c = d <;> simp [State.onCore, h]

@[simp] theorem ctx_setCtx (k : Core) (x y : Nat) (v : Ctx) : (k.setCtx x v).ctx y = if x = y then v else k.ctx y := by
  simp [Core.ctx, Core.setCtx, Tab.get_set]

@[simp] theorem ctx_coreOnCtx (k : Core) (x y : Nat) (f : Ctx → Ctx) :
    (k.onCtx x f).ctx y = if x = y then f (k.ctx y) else k.ctx y := by
  by_cases h : x = y <;> simp [Core.onCtx, h]

@[simp] theorem ctx_onCtx (s : State) (c x d y : Nat) (f : Ctx → Ctx) :
    (s.onCtx c x f).ctx d y = if c = d ∧ x = y then f (s.ctx d y) else s.ctx d y := by
  by_cases h : c = d
  · by_cases g : x = y <;> simp [State.onCtx, State.setCtx, State.ctx, h, g]
  · simp [State.onCtx, State.setCtx, State.ctx, h]

@[simp] theorem die_onDie (s : State) (d e : Nat) (f : Die → Die) :
    (s.onDie d f).die e = if d = e then f (s.die e) else s.die e := by
  by_cases h : d = e <;> simp [State.die, State.onDie, Tab.get_set, h]

@[simp] theorem port_onPort (s : State) (p q : Nat) (f : Port → Port) :
    (s.onPort p f).port q = if p = q then f (s.port q) else s.port q := by
  by_cases h : p = q <;> simp [State.port, State.onPort, Tab.get_set, h]

@[simp] theorem queue_onQueue (s : State) (p q : Nat) (f : Queue → Queue) :
    (s.onQueue p f).queue q = if p = q then f (s.queue q) else s.queue q := by
  by_cases h : p = q <;> simp [State.queue, State.onQueue, Tab.get_set, h]

@[simp] theorem window_onWindow (s : State) (p q : Nat) (f : Window → Window) :
    (s.onWindow p f).window q = if p = q then f (s.window q) else s.window q := by
  by_cases h : p = q <;> simp [State.window, State.onWindow, Tab.get_set, h]

end Sys2Proof.Laws
end

