-- ==== Sys2Proof/Safety.lean ====
section
/-! DEFINITION. What a safe step is, and the terms in which the claims speak of one: an operation that nothing holds back,
a result that arrives, an access that is sent, what stays as it was. -/

namespace Sys2Proof

/-- The step of a state answers a next state. -/
def StepsOn (s : Machine.State) : Prop := ∃ t, Machine.step s = .next t

/-- The states that `n` steps reach without a stop. -/
def reachesIn (s : Machine.State) : Nat → Machine.State → Prop
  | 0, t => t = s
  | n + 1, t => ∃ u, Machine.step s = .next u ∧ reachesIn u n t

namespace Machine

/-- The instruction answers a next state, and `P` holds of it. -/
def answers (i : Instr) (s : State) (P : State → Prop) : Prop := ∃ t, exec i s = .next t ∧ P t

/-- Nothing holds the operation back: its guard is full and 1, its sources are full, its destinations have no pending
write, and what it consumes is not poisoned (R203, R208-R210, R353). -/
def State.grants (s : State) (pred : Nat) (srcs : List Src) (dests : List Dest) (eats : List Src) : Prop :=
  (s.p pred).full = true ∧ (s.p pred).val = true ∧ (∀ r ∈ srcs, r.full s = true) ∧
    (∀ d ∈ dests, s.old.pending d = false) ∧ ∀ r ∈ eats, r.poison s = false

/-- A register holds a value with its poison and is full; G0 and P0 take no write (R207, R208). -/
def Ctx.holds (k : Ctx) (d : Dest) (val : Vec) (poison : Bool) : Prop :=
  match d with
  | .g n => n = 0 ∨ k.gAt n = { val := val.setWidth 64, full := true, poison }
  | .v n => k.vAt n = { val, full := true, poison }
  | .p n => n = 0 ∨ k.pAt n = { val := val.getLsbD 0, full := true }
  | .k n => k.kAt n = val.setWidth 256
  | .acc _ => True

/-- A register is empty; G0, P0 and K registers never are (R207, R208). -/
def Ctx.empties (k : Ctx) (d : Dest) : Prop :=
  match d with
  | .g n => n = 0 ∨ (k.gAt n).full = false
  | .v n => (k.vAt n).full = false
  | .p n => n = 0 ∨ (k.pAt n).full = false
  | _ => True

/-- The registers outside `ds` read as before. -/
def Ctx.keeps (k old : Ctx) (ds : List Dest) : Prop :=
  (∀ n, .g n ∉ ds → k.gAt n = old.gAt n) ∧ (∀ n, .v n ∉ ds → k.vAt n = old.vAt n) ∧
    (∀ n, .p n ∉ ds → k.pAt n = old.pAt n) ∧ ∀ n, .k n ∉ ds → k.kAt n = old.kAt n

/-- The package but the cores, every other core, every other context and this core's own fields but its contexts and
spill entries are as before. -/
def State.elsewhere (s t : State) : Prop :=
  { t with cores := s.cores } = s ∧ (∀ c, c ≠ s.fc → t.core c = s.core c) ∧
    { t.fcore with ctxs := s.fcore.ctxs, spills := s.fcore.spills } = s.fcore ∧ ∀ x, x ≠ s.fx → t.fcore.ctx x = s.fcore.ctx x

/-- The context in focus but its G, V, P and K registers, its pending writes and its saturation flag and count is as
before. -/
def State.regsOnly (s t : State) : Prop :=
  s.elsewhere t ∧
    { t.cur with g := s.cur.g, v := s.cur.v, p := s.cur.p, k := s.cur.k, pend := s.cur.pend, sat := s.cur.sat,
                 satcnt := s.cur.satcnt, events := s.cur.events } = s.cur

/-- `n` saturation events reached SAT and SATCNT (R100). -/
def Ctx.counted (k old : Ctx) (n : Nat) : Prop :=
  k.sat = (old.sat || decide (n ≠ 0)) ∧ k.satcnt.toNat = min (old.satcnt.toNat + n) (2 ^ 64 - 1)

/-- A result of latency 1: the register holds it in the next state, `n` events are counted, nothing else changes. -/
def State.wrote (s t : State) (d : Dest) (val : Vec) (poison : Bool) (n : Nat) : Prop :=
  t.cur.holds d val poison ∧ t.cur.counted s.cur n ∧ t.cur.pend = s.cur.pend ∧ t.cur.keeps s.cur [d] ∧ s.regsOnly t

/-- Results of latency 2 and more: each register is empty and its write is pending, due so many cycles on; nothing else
changes. -/
def State.queued (s t : State) (ps : List Pend) : Prop :=
  (∀ p ∈ ps, t.cur.empties p.dest) ∧ t.cur.pend = s.cur.pend ++ ps ∧ t.cur.counted s.cur 0 ∧
    t.cur.keeps s.cur (ps.map (·.dest)) ∧ s.regsOnly t

/-- A pending fixed-latency write of an operation that issues now. -/
def State.due (s : State) (L : Nat) (d : Dest) (val : Vec) (poison : Bool) (n : Nat) : Pend :=
  { dest := d, due := s.fcore.cycle + L, val, poison, landed := false, arrived := true, req := 0, sat := n }

/-- The pending landing of a request (R213, R214). -/
def State.lands (s : State) (N : Nat) (d : Dest) : Pend :=
  { dest := d, due := s.fcore.cycle + N, val := 0, poison := false, landed := true, arrived := false, req := s.nextId, sat := 0 }

/-- An instruction with one result, at latency 1 or at latency L. -/
def yields (i : Instr) (s : State) (L : Nat) (d : Dest) (val : Vec) (poison : Bool) (n : Nat) : Prop :=
  answers i s fun t => if L = 1 then s.wrote t d val poison n else s.queued t [s.due L d val poison n]

/-- A scalar operation's result: poisoned when a G source is, and then it counts nothing (R225, R227). -/
def scalarYields (i : Instr) (s : State) (L d : Nat) (srcs : List Src) (val : Int) (n : Nat) : Prop :=
  yields i s L (s.dg d) (wide (wd val)) (s.anyPoison srcs) (if s.anyPoison srcs then 0 else n)

/-- A request of the context in focus is in the net with the next number, a release waiting at its source; every other
request is still there, and memory is as before. -/
def State.sends (s t : State) (kind : AccKind) (pieces : List Piece) (ret : Ret) (release : Bool)
    (atom : Option (AtomOp × Nat × Bool × Nat × Option Nat)) : Prop :=
  t.nextId = s.nextId + 1 ∧ t.mem = s.mem ∧ t.poison = s.poison ∧ (∀ q ∈ s.net, q.id ≠ s.nextId → q ∈ t.net) ∧
    ∃ r ∈ t.net, r.id = s.nextId ∧ r.agent = .ctx s.fc s.fx ∧ r.kind = kind ∧ r.asid = (s.cur.task.map (·.asid)).getD 0 ∧
      r.pieces = pieces ∧ r.ret = ret ∧ r.atom = atom ∧ r.key = s.old.rngkey ∧ r.rstep = s.old.rngstep ∧
      (release = true → r.stage = .flush)

/-- The address of a header that a displacement of words names (R242). -/
def headerAt (pc : Nat) (disp : Int) : Nat := (((pc : Int) + 4 * disp) % 2 ^ 56).toNat

/-- The loop registers after an active loop is abandoned: one that is not active keeps them (R249). -/
def LoopRegs.abandoned (l : LoopRegs) : LoopRegs :=
  { l with act := false, x := if l.act then false else l.x, exited := if l.act then false else l.exited }

/-- The context leaves for `r` at the end of its bundle, and an active loop is abandoned; nothing else changes. -/
def leavesFor (s t : State) (r : Redirect) : Prop :=
  t = s.onCur fun k => { k with loop := k.loop.abandoned, redirect := some r }

/-- Part of the bytes [va, va + n) lies in a scratchpad, the ring memory or a page of the context in focus (R13, R14). -/
def State.reaches (s : State) (va n : Nat) : Prop := ∃ c ∈ cuts va n, spot (.ctx s.fc s.fx) c.1 ≠ .out

/-- All of the bytes [va, va + n) are out of range for the context in focus (R14). -/
def State.misses (s : State) (va n : Nat) : Prop := ∀ c ∈ cuts va n, spot (.ctx s.fc s.fx) c.1 = .out

/-- A load: its request, and its landing at cycle c + N. -/
def loads (i : Instr) (s : State) (N : Nat) (d : Dest) (kind : AccKind) (pieces : List Piece) (conv : Conv) (release : Bool)
    (atom : Option (AtomOp × Nat × Bool × Nat × Option Nat)) : Prop :=
  answers i s fun u => s.sends u kind pieces (.reg s.fc s.fx conv) release atom ∧ u.cur.empties d ∧
    u.cur.pend = s.cur.pend ++ [s.lands N d] ∧ u.cur.keeps s.cur [d]

/-- A load that is declined at once (R14, R255): no byte of memory changes, and its landing at cycle c + N has its data,
poisoned when `p` says so. -/
def lost (i : Instr) (s : State) (N : Nat) (d : Dest) (p : Bool) : Prop :=
  answers i s fun u => u.mem = s.mem ∧ u.poison = s.poison ∧ u.cur.empties d ∧ u.cur.keeps s.cur [d] ∧
    u.cur.pend = s.cur.pend ++ [s.lands N d] ∧
    ∃ y, u.replies = s.replies ++ [y] ∧ y.id = s.nextId ∧ y.core = s.fc ∧ y.x = s.fx ∧ y.poison = p

/-- A store that is declined at once (R14, R33, R255): it writes no byte and no register, and it sets the declined-store
flag with the address of the first store dropped. -/
def declines (i : Instr) (s : State) (va : Nat) : Prop :=
  answers i s fun u => u.mem = s.mem ∧ u.poison = s.poison ∧ u.nextId = s.nextId + 1 ∧ u.cur.keeps s.cur [] ∧
    u.cur.pend = s.cur.pend ∧ u.cur.decl = true ∧ (s.cur.decl = false → u.cur.declFirst = va % 2 ^ 56)

/-- A store: its request. It changes no register, and no byte of memory before it reaches its home. -/
def stores (i : Instr) (s : State) (pieces : List Piece) (ret : Ret) (release : Bool) : Prop :=
  answers i s fun u => s.sends u .store pieces ret release none ∧ u.cur.keeps s.cur [] ∧ u.cur.pend = s.cur.pend

/-- Lane m of a mask (R279). -/
def laneOn (mask : BitVec 256) (bits m : Nat) : Bool := mask.getLsbD (m * (bits / 8))

/-- The V sources of a masked operation: Vd too when it is always read or a lane is inactive (R279). -/
def vecSrcs (mask : BitVec 256) (bits : Nat) (srcs : List Src) (readD : Bool) (d : Nat) : List Src :=
  if readD = false ∧ ∀ m < 2048 / bits, laneOn mask bits m = true then srcs else srcs ++ [.v d true]

/-- Lane values that are stored, with the lanes whose value was changed by saturation. -/
structure LaneSpec where
  val : Nat → Int
  hit : Nat → Bool := fun _ => false

/-- An exact lane value clamped to `bits` signed bits (R280). -/
def clamped (bits : Nat) (f : Nat → Int) : LaneSpec :=
  { val := fun m => min (max (f m) (-2 ^ (bits - 1))) (2 ^ (bits - 1) - 1)
    hit := fun m => !(decide (-2 ^ (bits - 1) ≤ f m) && decide (f m < 2 ^ (bits - 1))) }

/-- A masked vector operation: each active lane holds the low bits of its value, an inactive one its old value; a read
poison poisons the result, else each active lane that saturated counts once (R278-R281). -/
def vecYields (i : Instr) (s : State) (t : Tri) (L bits : Nat) (srcs : List Src) (readD : Bool) (f : LaneSpec) : Prop :=
  let mask := s.maskOf t
  let all := vecSrcs mask bits srcs readD t.d
  let p := s.anyPoison all
  s.grants t.pred all [s.dv t.d] [] →
  ∀ r : Vec, (∀ m < 2048 / bits, lane bits r m = if laneOn mask bits m then sx (f.val m) bits else lane bits (s.v t.d).val m) →
    yields i s L (s.dv t.d) r p
      (if p then 0 else ((List.range (2048 / bits)).filter fun m => laneOn mask bits m && f.hit m).length)

/-- A vector operation that writes every lane of its destination. -/
def vecWhole (i : Instr) (s : State) (t : Tri) (L bits : Nat) (srcs : List Src) (f : Nat → Int) (n : Nat) : Prop :=
  let p := s.anyPoison srcs
  s.grants t.pred srcs [s.dv t.d] [] →
  ∀ r : Vec, (∀ m < 2048 / bits, lane bits r m = sx (f m) bits) → yields i s L (s.dv t.d) r p (if p then 0 else n)

/-- A numbered command of the context in focus is the last in its engine's queue, under the next number (R132). -/
def State.joins (s t : State) (e : Engine) (cmd : EngCmd) : Prop :=
  (t.tl s.fc e).issued = (s.tl s.fc e).issued + 1 ∧ (t.tl s.fc e).done = (s.tl s.fc e).done ∧
    ∃ i, (t.tl s.fc e).queue = (s.tl s.fc e).queue ++ [i] ∧ i.num = (s.tl s.fc e).issued + 1 ∧ i.core = s.fc ∧ i.ctx = s.fx ∧
      i.asid = (s.cur.task.map (·.asid)).getD 0 ∧ i.cmd = cmd

/-- An instruction that gives an engine a command and writes its number to Gd at latency 2 (R132, R299). -/
def numbered (i : Instr) (s : State) (d : Nat) (e : Engine) (cmd : EngCmd) : Prop :=
  answers i s fun u => s.joins u e cmd ∧ u.cur.empties (s.dg d) ∧ u.cur.keeps s.cur [s.dg d] ∧ u.mem = s.mem ∧
    u.cur.pend.getLast? = some (s.due 2 (s.dg d) (BitVec.ofNat 2048 (((s.tl s.fc e).issued + 1) % 2 ^ 64)) false 0)

/-- A matrix command of the context in focus is the last in its engine (R319). -/
def State.takesMx (s t : State) (m : MxCmd) : Prop :=
  t.fcore.mx = s.fcore.mx ++ [m] ∧ t.mem = s.mem

/-- R132: after number `n` has completed, the counter has passed only completed numbers, `n` is behind it or waits for
the numbers before it, a poisoned number is noted, and the command has left the queue. -/
def Timeline.completed (t u : Timeline) (n : Nat) (poison : Bool) : Prop :=
  u.issued = t.issued ∧ t.done ≤ u.done ∧ (n ≤ u.done ∨ n ∈ u.fin) ∧ (∀ m, t.done < m → m ≤ u.done → m ∈ t.fin ∨ m = n) ∧
    u.bad = (if poison then t.bad ++ [n] else t.bad) ∧ u.queue = t.queue.filter fun i => i.num ≠ n

/-- A die's journal has one more entry, the last: SEQ, TYPE and what is given from byte 8 on (R341, R431). -/
def State.journals (s t : State) (d typ : Nat) (body : List Byte) : Prop :=
  (t.die d).jtail = ((s.die d).jtail + 1) % 2 ^ 32 ∧
    t.bytes (journalKey d (64 * ((s.die d).jtail % 16384))) 64 =
      (leBytes 4 (s.die d).jtail ++ [BitVec.ofNat 8 typ, 0, 0, 0] ++ body ++ List.replicate (56 - body.length) 0)

/-- Both ports have one more record, the last (R345). -/
def State.tellsBoth (s t : State) (typ die : Nat) (words : List Word) : Prop :=
  ∀ n < 2, (t.port n).recs = (s.port n).recs ++ [{ typ, die, queue := 0, words }]

end Machine

open Machine

/-- The command that a write of CMD names ends at once: STAT shows its status, DONE has advanced, and the rest of the
package is as `effect` says (R196). -/
def Instr.ends (i : Instr) (s : State) (c : Cmd) (code : Nat) (st : Stat) (effect : State) : Prop :=
  answers i s fun t => { t with ports := s.ports } = effect ∧ (∀ p, p ≠ c.port → t.port p = s.port p) ∧
    t.port c.port = { s.port c.port with
      busy := false, stat := st.code, code, doneN := ((s.port c.port).doneN + 1) % 2 ^ 32, running := none }

/-- The command is under way: its port is busy with it, and the rest of the package is as `effect` says. -/
def Instr.runs (i : Instr) (s : State) (c : Cmd) (code : Nat) (effect : State) : Prop :=
  answers i s fun t => { t with ports := s.ports } = effect ∧ (∀ p, p ≠ c.port → t.port p = s.port p) ∧
    t.port c.port = { s.port c.port with busy := true, running := some (code, c) }

/-- The slot and the guard predicate of a native operation (R203, R204). -/
def Instr.guard : Instr → Option (Nat × Nat)
  | .add t | .sub t | .mul t | .mulh t | .mulhn t | .and t | .or t | .xor t | .andn t | .min t | .minn t | .max t
  | .maxn t | .abs t | .mov t | .shl t | .shr t | .sar t | .rol t | .clz t | .ctz t | .popc t | .ext t | .ins t
  | .sel t | .cmp _ t | .pand t | .por t | .pxor t | .pnot t | .shrn t | .shrs t | .sats t | .divf t | .remf t
  | .rcpn t | .rsqn t | .rnd t | .brr t | .callr t | .ret t | .atom _ _ _ t | .cas _ _ t | .tlook t | .tset t
  | .tclr t | .tinv t | .spill t | .unspill t | .barw t | .barm t | .evpost t | .icinv t | .lsupd t | .vadd _ t
  | .vsub _ t | .vadds _ t | .vsubs _ t | .vmul _ t | .vmulh _ t | .vmulsh _ t | .vmac _ t | .vmin _ t | .vmax _ t
  | .vabs _ t | .vneg _ t | .vand _ t | .vor _ t | .vxor _ t | .vnot _ t | .vshl _ t | .vshr _ t | .vsar _ t
  | .vshrs _ t | .vshrn _ t | .vsat _ t | .vwid _ t | .vpack _ t | .vcmp _ _ t | .vsel _ t | .vbcast _ t
  | .vperm _ t | .vshuf _ t | .vrot _ t | .vmovg _ t | .vins _ t | .vredadd _ t | .vredmax _ t | .vredmin _ t
  | .vcensus _ t | .vexp2 _ t | .vlut _ t | .vhad _ t | .vcbdec _ t | .vclz _ t | .viota _ t | .kand t | .kor t
  | .knot t | .mldn t | .mldw t | .mlds t | .mrun t | .mdrain t | .mclr t | .maccmv t | .mregrow t | .mpois t
  | .sbind t | .spat t | .sfree t | .sstat t | .dset t | .dget t | .dsetf t | .dgetf t | .cpy t | .cpym t
  | .gridld t | .gridsc t | .wput t | .wget t | .coll t | .spawn t => some (t.slot, t.pred)
  | .addi t | .andi t | .ori t | .xori t | .movi t | .shli t | .shri t | .sari t | .cmpi _ t | .loop t | .loopx t
  | .waitt t | .readt t | .cropen t | .trap t | .csrr t | .csrw t | .csrs t | .csrc t | .stageCsrWrite t
  | .cbtbaseWrite t | .yield t | .mcps t | .stage t => some (t.slot, t.pred)
  | .bra t | .brc t | .call t => some (t.slot, t.pred)
  | .ld _ t | .lda _ _ t | .vld t | .vlds t | .bara t => some (t.slot, t.pred)
  | .st _ t | .stl _ _ t | .vst t | .vstDescriptor t => some (t.slot, t.pred)
  | .fence _ _ t | .crclose t | .track t | .tret t | .endTask t => some (t.slot, t.pred)
  | _ => none

end Sys2Proof
end

