-- ==== Sys2Proof/Laws/Ops.lean ====
section
/-! SUPPORT. What the shared operations of issue and of results can do, said once each. -/

namespace Sys2Proof.Laws

open Machine

/-! ## Issue -/

/-- An operation that nothing holds back runs its body. -/
theorem issue_granted (s : State) (n : Need) (body : State → State)
    (h : s.grants n.pred n.srcs n.dests n.eats) : s.issue n body = body s := by
  obtain ⟨hf, hv, hs, hd, he⟩ := h
  have h1 : n.srcs.find? (fun r => !r.full s && !r.waits) = none := by
    simp only [List.find?_eq_none, Bool.and_eq_true, Bool.not_eq_true']
    intro r hr; simp [hs r hr]
  have h2 : n.srcs.any (fun r => !r.full s) = false := by
    simp only [List.any_eq_false, Bool.not_eq_true']
    intro r hr; simp [hs r hr]
  have h3 : n.dests.any s.old.pending = false := by
    simp only [List.any_eq_false]
    intro r hr; simp [hd r hr]
  have h4 : n.eats.find? (fun r => r.poison s) = none := by
    simp only [List.find?_eq_none]
    intro r hr; simp [he r hr]
  simp [State.issue, hf, hv, h1, h2, h3, h4]

/-- An operation whose guard is 0 does nothing. -/
theorem issue_guard_zero (s : State) (n : Need) (body : State → State) (hf : (s.p n.pred).full = true)
    (hv : (s.p n.pred).val = false) : s.issue n body = s := by
  simp [State.issue, hf, hv]

/-- Everything that issue can do. -/
theorem issue_cases (s : State) (n : Need) (body : State → State) :
    s.issue n body = s ∨ s.issue n body = s.wait .regs ∨
      (∃ r ∈ n.srcs, r.full s = false ∧ r.waits = false ∧ s.issue n body = { s.trap 3 r.addr n.slot with mark := .early }) ∨
      (∃ r ∈ n.eats, r.poison s = true ∧ s.issue n body = s.trap 4 r.eatAddr n.slot) ∨
      (s.grants n.pred n.srcs n.dests n.eats ∧ s.issue n body = body s) := by
  by_cases hf : (s.p n.pred).full
  · by_cases hv : (s.p n.pred).val
    · cases h1 : n.srcs.find? (fun r => !r.full s && !r.waits) with
      | some r =>
        have hm := List.mem_of_find?_eq_some h1
        have hp := List.find?_some h1
        simp only [Bool.and_eq_true, Bool.not_eq_true'] at hp
        exact .inr (.inr (.inl ⟨r, hm, hp.1, hp.2, by simp [State.issue, hf, hv, h1]⟩))
      | none =>
        by_cases h2 : n.srcs.any (fun r => !r.full s) || n.dests.any s.old.pending
        · exact .inr (.inl (by simp only [State.issue, hf, hv, h1, h2]; simp))
        · cases h4 : n.eats.find? (fun r => r.poison s) with
          | some r =>
            exact .inr (.inr (.inr (.inl ⟨r, List.mem_of_find?_eq_some h4, List.find?_some h4,
              by simp only [State.issue, hf, hv, h1, h2, h4]; simp⟩)))
          | none =>
            refine .inr (.inr (.inr (.inr ⟨⟨hf, hv, ?_, ?_, ?_⟩, by simp only [State.issue, hf, hv, h1, h2, h4]; simp⟩)))
            · intro r hr
              simp only [Bool.or_eq_true, List.any_eq_true, not_or, not_exists, not_and, Bool.not_eq_true', Bool.not_eq_false] at h2
              exact h2.1 r hr
            · intro d hd
              simp only [Bool.or_eq_true, List.any_eq_true, not_or, not_exists, not_and, Bool.not_eq_true] at h2
              exact h2.2 d hd
            · intro r hr
              simpa using (List.find?_eq_none.1 h4) r hr
    · exact .inl (by simp [State.issue, hf, hv])
  · exact .inr (.inl (by simp [State.issue, hf]))

/-! ## Registers -/

theorem empty_empties (k : Ctx) (d : Dest) : (k.empty d).empties d := by
  cases d with
  | g n => by_cases h : n = 0 <;> simp [Ctx.empty, Ctx.empties, Ctx.gAt, h]
  | v n => simp [Ctx.empty, Ctx.empties, Ctx.vAt]
  | p n => by_cases h : n = 0 <;> simp [Ctx.empty, Ctx.empties, Ctx.pAt, h]
  | k n => simp [Ctx.empties]
  | acc t => simp [Ctx.empties]

theorem put_holds (k : Ctx) (d : Dest) (val : Vec) (poison : Bool) : (k.put d val poison).holds d val poison := by
  cases d with
  | g n => by_cases h : n = 0 <;> simp [Ctx.put, Ctx.holds, Ctx.gAt, h]
  | v n => simp [Ctx.put, Ctx.holds, Ctx.vAt]
  | p n => by_cases h : n = 0 <;> simp [Ctx.put, Ctx.holds, Ctx.pAt, h]
  | k n => simp [Ctx.put, Ctx.holds, Ctx.kAt]
  | acc t => simp [Ctx.holds]

theorem keeps_refl (k : Ctx) (ds : List Dest) : k.keeps k ds :=
  ⟨fun _ _ => rfl, fun _ _ => rfl, fun _ _ => rfl, fun _ _ => rfl⟩

theorem keeps_trans {a b c : Ctx} {ds es : List Dest} (h : a.keeps b ds) (h' : b.keeps c es) : a.keeps c (es ++ ds) := by
  obtain ⟨h1, h2, h3, h4⟩ := h
  obtain ⟨g1, g2, g3, g4⟩ := h'
  refine ⟨fun n hn => ?_, fun n hn => ?_, fun n hn => ?_, fun n hn => ?_⟩ <;> simp only [List.mem_append, not_or] at hn
  · rw [h1 n hn.2, g1 n hn.1]
  · rw [h2 n hn.2, g2 n hn.1]
  · rw [h3 n hn.2, g3 n hn.1]
  · rw [h4 n hn.2, g4 n hn.1]

theorem put_keeps (k : Ctx) (d : Dest) (val : Vec) (poison : Bool) : (k.put d val poison).keeps k [d] := by
  cases d <;> refine ⟨fun n hn => ?_, fun n hn => ?_, fun n hn => ?_, fun n hn => ?_⟩ <;> simp only [Ctx.put] <;>
    first
      | rfl
      | (split <;> simp_all [Ctx.gAt, Ctx.pAt, Ctx.vAt, Ctx.kAt, Tab.get_set, eq_comm])
      | simp_all [Ctx.vAt, Ctx.kAt, Tab.get_set, eq_comm]

theorem empty_keeps (k : Ctx) (d : Dest) : (k.empty d).keeps k [d] := by
  cases d <;> refine ⟨fun n hn => ?_, fun n hn => ?_, fun n hn => ?_, fun n hn => ?_⟩ <;> simp only [Ctx.empty] <;>
    first
      | rfl
      | (split <;> simp_all [Ctx.gAt, Ctx.pAt, Ctx.vAt, Ctx.kAt, Tab.get_set, eq_comm])
      | simp_all [Ctx.vAt, Tab.get_set, eq_comm]

theorem count_counted (k : Ctx) (n : Nat) : (k.count n).counted k n := by
  by_cases h : n = 0
  · subst h
    have := k.satcnt.isLt
    simp [Ctx.count, Ctx.counted] <;> omega
  · have h1 : min (k.satcnt.toNat + n) (2 ^ 64 - 1) < 2 ^ 64 := by omega
    simp [Ctx.count, Ctx.counted, h] <;> omega

/-! ## Changes of the context in focus -/

/-- A change of the context in focus and of the spill entries of its core. -/
theorem elsewhere_onFc (s : State) (f : Ctx → Ctx) (g : List Spill → List Spill) :
    s.elsewhere (s.onFc fun k => { k.onCtx s.fx f with spills := g k.spills }) := by
  refine ⟨rfl, fun c hc => ?_, ?_, fun x hx => ?_⟩
  · simp [State.onFc, State.onCore, State.setCore, State.core, Tab.get_set_of_ne _ _ _ (Ne.symm hc)]
  · simp [State.fcore, State.onFc, State.onCore, State.setCore, State.core, Core.onCtx, Core.setCtx, State.fc]
  · have := Tab.get_set_of_ne (s.cores.get s.fc {}).ctxs (f ((s.cores.get s.fc {}).ctxs.get s.fx {})) ({} : Ctx) (Ne.symm hx)
    simp [State.fcore, State.onFc, State.onCore, State.setCore, State.core, Core.onCtx, Core.setCtx, Core.ctx, State.fc] at this ⊢
    exact this

theorem cur_onFc (s : State) (f : Ctx → Ctx) (g : List Spill → List Spill) :
    (s.onFc fun k => { k.onCtx s.fx f with spills := g k.spills }).cur = f s.cur := by
  simp [State.cur, State.ctx, State.onFc, State.onCore, State.setCore, State.core, Core.onCtx, Core.setCtx, Core.ctx,
    State.fc, State.fx]

/-- A change of the context in focus alone. -/
theorem elsewhere_onCur (s : State) (f : Ctx → Ctx) : s.elsewhere (s.onCur f) := elsewhere_onFc s f id

theorem elsewhere_refl (s : State) : s.elsewhere s := ⟨rfl, fun _ _ => rfl, rfl, fun _ _ => rfl⟩

theorem elsewhere_focus {s t : State} (h : s.elsewhere t) : t.focus = s.focus := by
  have := congrArg State.focus h.1; simpa using this

theorem elsewhere_before {s t : State} (h : s.elsewhere t) : t.before = s.before := by
  have := congrArg State.before h.1; simpa using this

theorem elsewhere_trans {s t u : State} (h : s.elsewhere t) (h' : t.elsewhere u) : s.elsewhere u := by
  have hf := elsewhere_focus h
  have hc : t.fc = s.fc := by simp [State.fc, hf]
  have hx : t.fx = s.fx := by simp [State.fx, hf]
  have hu : u.fc = t.fc := by simp [State.fc, elsewhere_focus h']
  obtain ⟨a1, a2, a3, a4⟩ := h
  obtain ⟨b1, b2, b3, b4⟩ := h'
  refine ⟨?_, fun c hcc => ?_, ?_, fun x hxx => ?_⟩
  · rw [← a1, ← b1]
  · rw [b2 c (hc ▸ hcc), a2 c hcc]
  · rw [← a3, ← b3]
  · rw [b4 x (hx ▸ hxx), a4 x hxx]

/-! ## Results (R208, R217) -/

theorem put_pend (k : Ctx) (d : Dest) (val : Vec) (poison : Bool) : (k.put d val poison).pend = k.pend := by
  cases d <;> simp only [Ctx.put] <;> first | rfl | (split <;> rfl)

theorem empty_pend (k : Ctx) (d : Dest) : (k.empty d).pend = k.pend := by
  cases d <;> simp only [Ctx.empty] <;> first | rfl | (split <;> rfl)

/-- What no write of a register and no count changes. -/
def sameCtx (k old : Ctx) : Prop :=
  { k with g := old.g, v := old.v, p := old.p, k := old.k, pend := old.pend, sat := old.sat, satcnt := old.satcnt, events := old.events } = old

theorem sameCtx_put (k : Ctx) (d : Dest) (val : Vec) (poison : Bool) : sameCtx (k.put d val poison) k := by
  cases d <;> simp only [Ctx.put] <;> first | rfl | (split <;> rfl)

theorem sameCtx_empty (k : Ctx) (d : Dest) : sameCtx (k.empty d) k := by
  cases d <;> simp only [Ctx.empty] <;> first | rfl | (split <;> rfl)

theorem sameCtx_count (k : Ctx) (n : Nat) : sameCtx (k.count n) k := by
  simp only [Ctx.count]; split <;> rfl

theorem sameCtx_trans {a b c : Ctx} (h : sameCtx a b) (h' : sameCtx b c) : sameCtx a c := by
  unfold sameCtx at *; rw [← h', ← h]

theorem count_keeps (k : Ctx) (n : Nat) (ds : List Dest) : (k.count n).keeps k ds := by
  simp only [Ctx.count]; split <;> exact ⟨fun _ _ => rfl, fun _ _ => rfl, fun _ _ => rfl, fun _ _ => rfl⟩

theorem count_holds (k : Ctx) (n : Nat) (d : Dest) (val : Vec) (p : Bool) (h : k.holds d val p) : (k.count n).holds d val p := by
  simp only [Ctx.count]; split
  · exact h
  · cases d <;> exact h

/-- What a latency-1 result changes of the core in focus. -/
theorem result_one (s : State) (d : Dest) (val : Vec) (poison : Bool) (n : Nat) :
    s.result 1 d val poison n = s.onFc fun k => { k.onCtx s.fx (fun c => (c.put d val poison).count n) with
      spills := k.spills.filter fun e => ¬ (e.ctx = s.fx ∧ e.dest = d) } := by
  simp [State.result, Core.put, Core.unspilled, Core.onCtx, Core.setCtx, Core.ctx, State.onFc, State.onCore, Tab.set_set]

/-- A latency-1 result: the register holds it, the events are counted, nothing else changes. -/
theorem result_wrote (s : State) (d : Dest) (val : Vec) (poison : Bool) (n : Nat) :
    s.wrote (s.result 1 d val poison n) d val poison n := by
  rw [result_one]
  have hc := cur_onFc s (fun c => (c.put d val poison).count n) (fun l => l.filter fun e => ¬ (e.ctx = s.fx ∧ e.dest = d))
  have he := elsewhere_onFc s (fun c => (c.put d val poison).count n) (fun l => l.filter fun e => ¬ (e.ctx = s.fx ∧ e.dest = d))
  refine ⟨?_, ?_, ?_, ?_, he, ?_⟩ <;> rw [hc]
  · exact count_holds _ _ _ _ _ (put_holds _ _ _ _)
  · have h := count_counted (s.cur.put d val poison) n
    have h1 : (s.cur.put d val poison).sat = s.cur.sat := by cases d <;> simp only [Ctx.put] <;> first | rfl | (split <;> rfl)
    have h2 : (s.cur.put d val poison).satcnt = s.cur.satcnt := by cases d <;> simp only [Ctx.put] <;> first | rfl | (split <;> rfl)
    unfold Ctx.counted at h ⊢; rw [← h1, ← h2]; exact h
  · have : ((s.cur.put d val poison).count n).pend = (s.cur.put d val poison).pend := by
      simp only [Ctx.count]; split <;> rfl
    rw [this, put_pend]
  · have := keeps_trans (count_keeps (s.cur.put d val poison) n []) (put_keeps s.cur d val poison)
    simpa using this
  · exact sameCtx_trans (sameCtx_count _ _) (sameCtx_put _ _ _ _)

/-- What a later result changes of the context in focus. -/
theorem result_later (s : State) (L : Nat) (hL : 1 < L) (d : Dest) (val : Vec) (poison : Bool) (n : Nat) :
    s.result L d val poison n = s.onFc fun k => { k.onCtx s.fx (fun c =>
      { c.empty d with pend := (c.empty d).pend ++ [s.due L d val poison n] }) with spills := k.spills } := by
  have : ¬ L ≤ 1 := by omega
  simp [State.result, this, State.due, State.fcore, State.onFc, State.onCore, Core.onCtx, Core.setCtx]

/-- A later result: the register is empty, its write is pending, nothing else changes. -/
theorem result_queued (s : State) (L : Nat) (hL : 1 < L) (d : Dest) (val : Vec) (poison : Bool) (n : Nat) :
    s.queued (s.result L d val poison n) [s.due L d val poison n] := by
  rw [result_later s L hL]
  have hc := cur_onFc s (fun c => { c.empty d with pend := (c.empty d).pend ++ [s.due L d val poison n] }) id
  have he := elsewhere_onFc s (fun c => { c.empty d with pend := (c.empty d).pend ++ [s.due L d val poison n] }) id
  simp only [id] at hc he
  refine ⟨?_, ?_, ?_, ?_, he, ?_⟩ <;> rw [hc]
  · intro p hp
    simp only [List.mem_singleton] at hp
    subst hp
    have h := empty_empties s.cur d
    simp only [State.due]
    cases d <;> simpa [Ctx.empties, Ctx.gAt, Ctx.vAt, Ctx.pAt] using h
  · simp [empty_pend]
  · have h := count_counted s.cur 0
    have h1 : (s.cur.empty d).sat = s.cur.sat := by cases d <;> simp only [Ctx.empty] <;> first | rfl | (split <;> rfl)
    have h2 : (s.cur.empty d).satcnt = s.cur.satcnt := by cases d <;> simp only [Ctx.empty] <;> first | rfl | (split <;> rfl)
    simp only [Ctx.counted, h1, h2]; simpa [Ctx.counted, Ctx.count] using h
  · have h := empty_keeps s.cur d
    obtain ⟨a, b, c, e⟩ := h
    simp only [List.map_cons, List.map_nil, State.due]
    exact ⟨fun n hn => by simpa [Ctx.gAt] using a n hn, fun n hn => by simpa [Ctx.vAt] using b n hn,
      fun n hn => by simpa [Ctx.pAt] using c n hn, fun n hn => by simpa [Ctx.kAt] using e n hn⟩
  · have h := sameCtx_empty s.cur d
    exact h

/-! ## Requests (R138, R140) -/

theorem cuts_first (va n : Nat) (h : 0 < n) : ∃ m, (va, m) ∈ cuts va n :=
  ⟨_, by rw [cuts, cutUnits, if_neg (by omega)]; exact List.mem_cons_self⟩

/-- A run of bytes misses whatever it does not reach. -/
theorem misses_iff (s : State) (va n : Nat) : s.misses va n ↔ ¬ s.reaches va n := by
  simp [State.misses, State.reaches]

/-- A request all of whose bytes are out of range has no unit. -/
theorem unit_misses (s : State) (r : Req) (ha : r.agent = .ctx s.fc s.fx) (h : ∀ p ∈ r.pieces, s.misses p.va p.size) :
    r.unit = 3 := by
  have hall : ∀ x ∈ r.pieces.flatMap fun p => (cuts p.va p.size).map fun c => spot r.agent c.1, x = .out := by
    intro x hx
    obtain ⟨p, hp, hx⟩ := List.mem_flatMap.1 hx
    obtain ⟨c, hc, rfl⟩ := List.mem_map.1 hx
    rw [ha]; exact h p hp c hc
  simp only [Req.unit]
  rw [if_neg, if_neg, if_neg]
  · simp only [List.any_eq_true, not_exists, not_and]
    intro x hx; rw [hall x hx]; simp
  · simp only [List.any_eq_true, not_exists, not_and]
    intro x hx; rw [hall x hx]; simp
  · simp only [List.contains_eq_mem, decide_eq_true_eq]
    intro hx; cases hall _ hx

theorem unit_reaches (s : State) (r : Req) (ha : r.agent = .ctx s.fc s.fx)
    (h : ∃ p ∈ r.pieces, s.reaches p.va p.size) : r.unit ≠ 3 := by
  obtain ⟨p, hp, c, hc, hr⟩ := h
  rw [← ha] at hr
  have hm : spot r.agent c.1 ∈ r.pieces.flatMap fun p => (cuts p.va p.size).map fun c => spot r.agent c.1 :=
    List.mem_flatMap.2 ⟨p, hp, List.mem_map.2 ⟨_, hc, rfl⟩⟩
  intro h3
  simp only [Req.unit] at h3
  split at h3
  · cases h3
  · rename_i h1
    split at h3
    · cases h3
    · rename_i h2
      split at h3
      · cases h3
      · rename_i h4
        simp only [List.contains_eq_mem, decide_eq_true_eq, List.any_eq_true, not_exists, not_and] at h1 h2 h4
        cases hs : spot r.agent c.1 with
        | out => exact hr hs
        | page => rw [hs] at hm; exact h1 hm
        | ring o => rw [hs] at hm; exact h2 _ hm rfl
        | scratch c o => rw [hs] at hm; exact h4 _ hm rfl

/-- What sending a request leaves of the state, and the request it leaves in the net. -/
theorem sendReq_keeps (s : State) (r : Req) (c x : Nat) :
    let t := s.sendReq r c x
    t.nextId = s.nextId ∧ t.mem = s.mem ∧ t.poison = s.poison ∧ t.focus = s.focus ∧
      (∀ q ∈ s.net, q.id ≠ r.id → q ∈ t.net) ∧
      (∃ q ∈ t.net, q.id = r.id ∧ q.agent = r.agent ∧ q.kind = r.kind ∧ q.asid = r.asid ∧ q.pieces = r.pieces ∧
        q.ret = r.ret ∧ q.atom = r.atom ∧ q.key = r.key ∧ q.rstep = r.rstep) ∧
      (∀ y z, { t.ctx y z with past := (s.ctx y z).past } = s.ctx y z) := by
  have hk : ∀ (l : List Req) (r' : Req) (q : Req), r'.id = r.id → q ∈ l → q.id ≠ r.id →
      q ∈ (l.filter fun q => q.id ≠ r'.id) ++ [r'] := by
    intro l r' q hi hq he
    exact List.mem_append_left _ (List.mem_filter.2 ⟨hq, by simp [hi, he]⟩)
  have hfold : ∀ (hs : List Nat) (acc : State × List (Nat × Nat)),
      let o := hs.foldl (fun (acc : State × List (Nat × Nat)) h =>
        let (n, s1) := acc.1.nextSent r.src h
        (s1.onCtx c x fun k => { k with past := k.past.set h n }, acc.2 ++ [(h, n)])) acc
      o.1.nextId = acc.1.nextId ∧ o.1.mem = acc.1.mem ∧ o.1.poison = acc.1.poison ∧ o.1.focus = acc.1.focus ∧
        o.1.net = acc.1.net ∧ ∀ y z, { o.1.ctx y z with past := (acc.1.ctx y z).past } = acc.1.ctx y z := by
    intro hs
    induction hs with
    | nil => intro acc; exact ⟨rfl, rfl, rfl, rfl, rfl, fun _ _ => rfl⟩
    | cons h t ih =>
      intro acc
      obtain ⟨a1, a2, a3, a4, a5, a6⟩ := ih ((acc.1.nextSent r.src h).2.onCtx c x fun k => { k with past := k.past.set h (acc.1.nextSent r.src h).1 }, acc.2 ++ [(h, (acc.1.nextSent r.src h).1)])
      refine ⟨a1, a2, a3, a4, a5, fun y z => ?_⟩
      have hb := a6 y z
      have hc : ∀ y z, { ((acc.1.nextSent r.src h).2.onCtx c x fun k => { k with past := k.past.set h (acc.1.nextSent r.src h).1 }).ctx y z with past := (acc.1.ctx y z).past } = acc.1.ctx y z := by
        intro y z
        simp only [State.nextSent, State.onCtx, State.setCtx, State.setCore, State.ctx, State.core, State.onDie, Core.setCtx, Core.ctx, Tab.get_set]
        by_cases hy : c = y
        · subst hy
          by_cases hz : x = z
          · subst hz; simp [Tab.get_set]
          · simp [Tab.get_set, hz]
        · simp [hy]
      exact (congrArg (fun k : Ctx => { k with past := (acc.1.ctx y z).past }) hb).trans (hc y z)
  simp only [State.sendReq]
  split
  · exact ⟨rfl, rfl, rfl, rfl, fun q hq he => hk _ _ q rfl hq he,
      ⟨_, List.mem_append_right _ (List.mem_singleton.2 rfl), rfl, rfl, rfl, rfl, rfl, rfl, rfl, rfl, rfl⟩, fun _ _ => rfl⟩
  · have hf := hfold (r.homes.map (·.1)) (s, [])
    dsimp only at hf
    obtain ⟨a1, a2, a3, a4, a5, a6⟩ := hf
    refine ⟨a1, a2, a3, a4, fun q hq he => ?_, ?_, fun y z => a6 y z⟩
    · rw [State.netMove, a5]; exact hk _ _ q rfl hq he
    · exact ⟨_, List.mem_append_right _ (List.mem_singleton.2 rfl), rfl, rfl, rfl, rfl, rfl, rfl, rfl, rfl, rfl⟩

/-- A request with an address in range is in the net with the next number; it changes nothing of memory, and of the
contexts the past table only. -/
theorem request_sends (s : State) (kind : AccKind) (pieces : List Piece) (ret : Nat → Ret) (release : Bool)
    (atom : Option (AtomOp × Nat × Bool × Nat × Option Nat)) (h : ∃ p ∈ pieces, s.reaches p.va p.size) :
    let t := s.request kind pieces ret release atom
    s.sends t kind pieces (ret s.nextId) release atom ∧ t.focus = s.focus ∧
      ∀ y z, { t.ctx y z with past := (s.ctx y z).past } = s.ctx y z := by
  have hu : ∀ r : Req, r.agent = .ctx s.fc s.fx → r.pieces = pieces → r.unit ≠ 3 :=
    fun r ha hp => unit_reaches s r ha (hp ▸ h)
  have key : ∀ (S : State) (r : Req), S.nextId = s.nextId + 1 → S.mem = s.mem → S.poison = s.poison → S.focus = s.focus →
      (∀ q ∈ s.net, q ∈ S.net) → (∃ q ∈ S.net, q.id = r.id) → r.id = s.nextId → r.agent = .ctx s.fc s.fx → r.kind = kind →
      r.asid = (s.cur.task.map (·.asid)).getD 0 → r.pieces = pieces → r.ret = ret s.nextId → r.atom = atom →
      r.key = s.old.rngkey → r.rstep = s.old.rngstep → (∀ y z, S.ctx y z = s.ctx y z) →
      let t := S.sendReq r s.fc s.fx
      s.sends t kind pieces (ret s.nextId) false atom ∧ t.focus = s.focus ∧
        ∀ y z, { t.ctx y z with past := (s.ctx y z).past } = s.ctx y z := by
    intro S r h1 h2 h3 h4 h5 h6 i1 i2 i3 i4 i5 i6 i7 i8 i9 h7
    obtain ⟨a1, a2, a3, a4, a5, ⟨q, b1, b2, b3, b4, b5, b6, b7, b8, b9, b10⟩, a6⟩ := sendReq_keeps S r s.fc s.fx
    refine ⟨⟨a1.trans h1, a2.trans h2, a3.trans h3, fun q hq he => a5 q (h5 q hq) (by rw [i1]; exact he), q, b1, b2.trans i1,
      b3.trans i2, b4.trans i3, b5.trans i4, b6.trans i5, b7.trans i6, b8.trans i7, b9.trans i8, b10.trans i9,
      fun hr => by cases hr⟩, a4.trans h4, fun y z => ?_⟩
    have := a6 y z
    rw [h7] at this
    exact this
  cases release
  · simp only [State.request, Bool.false_eq_true, if_false]
    rw [if_neg (fun h3 => hu _ rfl rfl h3.1)]
    split
    · refine ⟨⟨rfl, rfl, rfl, fun q hq _ => List.mem_append_left _ hq, _, List.mem_append_right _ (List.mem_singleton.2 rfl),
        rfl, rfl, rfl, rfl, rfl, rfl, rfl, rfl, rfl, fun hr => by cases hr⟩, rfl, fun _ _ => rfl⟩
    · split
      · refine ⟨⟨rfl, rfl, rfl, fun q hq _ => List.mem_append_left _ hq, _,
          List.mem_append_right _ (List.mem_singleton.2 rfl), rfl, rfl, rfl, rfl, rfl, rfl, rfl, rfl, rfl,
          fun hr => by cases hr⟩, rfl, fun _ _ => rfl⟩
      · exact key _ _ rfl rfl rfl rfl (fun q hq => List.mem_append_left _ hq) ⟨_, List.mem_append_right _ (List.mem_singleton.2 rfl), rfl⟩
          rfl rfl rfl rfl rfl rfl rfl rfl rfl (fun _ _ => rfl)
  · simp only [State.request, if_true]
    rw [if_neg (fun h3 => hu _ rfl rfl h3.1)]
    split
    · refine ⟨⟨rfl, rfl, rfl, fun q hq _ => List.mem_append_left _ hq, _, List.mem_append_right _ (List.mem_singleton.2 rfl),
        rfl, rfl, rfl, rfl, rfl, rfl, rfl, rfl, rfl, fun _ => rfl⟩, rfl, fun _ _ => rfl⟩
    · rw [if_pos (Or.inl trivial)]
      refine ⟨⟨rfl, rfl, rfl, fun q hq _ => List.mem_append_left _ hq, _, List.mem_append_right _ (List.mem_singleton.2 rfl),
        rfl, rfl, rfl, rfl, rfl, rfl, rfl, rfl, rfl, fun _ => rfl⟩, rfl, fun _ _ => rfl⟩

end Sys2Proof.Laws
end

