-- ==== Sys2Proof/Certificates/Slice0/Obligations.lean ====
section
/-! DEFINITION. The statements that the provers are asked to prove. -/

open Sys2Proof Sys2Proof.Machine

/-! ## All native operations, decoding and the step -/

/-- R203, R208, R209, R210 and R353: a native operation with its guard at 0 does nothing, one whose guard is empty waits;
an empty source with B bit 0 is EARLYREAD with the register named, an empty source with B bit 1 and a pending write to a
destination are waits, and a consumed poison is a trap. TRADDR of R346 is the register as the operation names it, before
rotation (the model's reading, log entry 11). -/
def Obligations.IssueRules : Prop :=
  (∀ (i : Instr) (s : State) (slot pred : Nat), i.guard = some (slot, pred) →
    ((s.p pred).full = false → exec i s = .next (s.wait .regs)) ∧
      ((s.p pred).full = true → (s.p pred).val = false → exec i s = .next s)) ∧
  (∀ (t : Tri) (s : State), (s.p t.pred).full = true → (s.p t.pred).val = true →
    let a := s.g t.a
    let b := s.g t.b
    let early (n : Nat) : State := { s.trap 3 (BitVec.ofNat 64 n) t.slot with mark := .early }
    ∀ i ∈ [Instr.add t, .and t, .or t, .xor t, .shl t, .shr t, .sar t], t.ext = none →
      (a.full = false → t.ba = false → exec i s = .next (early t.a)) ∧
      (a.full = true → b.full = false → t.bb = false → exec i s = .next (early t.b)) ∧
      (a.full = false → t.ba = true → b.full = true ∨ t.bb = true → exec i s = .next (s.wait .regs)) ∧
      (a.full = true → b.full = true → s.old.pending (s.dg t.d) = true → exec i s = .next (s.wait .regs))) ∧
  (∀ (w : Width) (t : Tri) (s : State), (s.p t.pred).full = true → (s.p t.pred).val = true → (s.v t.a).full = false →
    t.ba = false → ∀ i ∈ [Instr.vadd w t, .vsub w t, .vmul w t, .vand w t, .vor w t, .vxor w t],
      exec i s = .next { s.trap 3 (BitVec.ofNat 64 (t.a + 64)) t.slot with mark := .early }) ∧
  (∀ (t : LandF) (s : State) (z : LdKind), (s.p t.pred).full = true → (s.p t.pred).val = true →
    let a := s.g t.a
    (a.full = false → t.ba = false →
      exec (.ld z t) s = .next { s.trap 3 (BitVec.ofNat 64 t.a) t.slot with mark := .early }) ∧
    (a.full = true → s.old.pending (s.dg t.d) = false → a.poison = true →
      exec (.ld z t) s = .next (s.trap 4 (BitVec.ofNat 64 t.a) t.slot))) ∧
  ∀ (t : Tri) (s : State) (c : Cond), (s.p t.pred).full = true → (s.p t.pred).val = true → t.ext = none →
    (s.g t.a).full = true → (s.g t.b).full = true → s.old.pending (s.dp t.d) = false →
      ((s.g t.a).poison = true → exec (.cmp c t) s = .next (s.trap 4 (BitVec.ofNat 64 t.a) t.slot)) ∧
      ((s.g t.a).poison = false → (s.g t.b).poison = true →
        exec (.cmp c t) s = .next (s.trap 4 (BitVec.ofNat 64 t.b) t.slot))

/-- R207, R206: no native operation changes a byte of memory when it issues (a store does so at its home), no operation
but END changes a G, V, P or K register that is not among its destinations, and none but END and SFREE touches another
context. LOOP and LOOPX also write P8 to P15, and SPILL empties the register it saves. -/
def Obligations.NativeFrame : Prop :=
  ∀ (i : Instr) (s u : State) (slot pred : Nat), i.guard = some (slot, pred) → exec i s = .next u →
    u.mem = s.mem ∧ u.poison = s.poison ∧
    ((∀ t, i ≠ .endTask t) → (∀ t, i ≠ .sfree t) → ∀ c x, ¬ (c = s.fc ∧ x = s.fx) → u.ctx c x = s.ctx c x) ∧
    ((∀ t, i ≠ .endTask t) →
      u.cur.keeps s.cur (match i with
        | .loop _ | .loopx _ => (List.range 8).map fun n => .p (8 + n)
        | .spill t => [s.dp t.d, if t.b = 0 then s.dg t.a else s.dv t.a]
        | _ => s.destsOf i))

/-- R41, R68, R72, R121: the bytes stored at a home read back from it, every byte outside them reads as before, at every
width of a read, and a line none of them touches keeps its poison. -/
def Obligations.ReadAfterWrite : Prop :=
  ∀ (s : State) (k : Nat) (bs : List Byte) (p : Bool), let u := s.store k bs p
    u.bytes k bs.length = bs ∧ (∀ j n, j + n ≤ k ∨ k + bs.length ≤ j → u.bytes j n = s.bytes j n) ∧
      (∀ j, ¬ (k ≤ j ∧ j < k + bs.length) → u.byte j = s.byte j) ∧
      (∀ j, (∀ i < bs.length, (k + i) / 64 ≠ j / 64) → u.linePoison j = s.linePoison j)

/-- Words written out bit by bit from the encodings of R198, R204, R220, R332 and R339 decode to the operations they stand
for; a point that no table assigns and a scalar row in a slot that does not hold it are refused. -/
def Obligations.DecodesSpecWords : Prop :=
  let tri (slot d : Nat) (ba : Bool) (a b : Nat) (ext : Option Nat) : Tri :=
    { slot, pred := 0, d, ba, a, bb := false, b, ext }
  (decodeWords 0 [0x01004103] = .ok (.add (tri 0 1 false 2 3 none)) ∧
    decodeWords 1 [0x0221437F] = .ok (.addi { slot := 1, pred := 2, d := 5, ba := false, a := 6, imm := -1, long := false }) ∧
    decodeWords 1 [0x5202A180] = .ok (.rcpn (tri 1 10 true 3 0 none)) ∧
    decodeWords 1 [0x800FFFFE] = .ok (.bra { slot := 1, pred := 0, disp := -2, long := false }) ∧
    decodeWords 2 [0x0301E400, 0xFFFF81F4] =
      .ok (.ld .i64 { slot := 2, pred := 0, d := 7, ba := true, a := 8, land := 500, disp := -8, long := true }) ∧
    decodeWords 2 [0x0A01C43C] =
      .ok (.st .b4 { slot := 2, pred := 0, src := 7, ba := false, a := 8, bs := false, off := -4, long := false }) ∧
    decodeWords 2 [0xBF004103, 0x000110C8] = .ok (.cas .dv .ar (tri 2 1 false 2 3 (some 0x110C8))) ∧
    decodeWords 3 [0x01004103, 2] = .ok (.vadd .i16 (tri 3 1 false 2 3 (some 2))) ∧
    decodeWords 4 [0x6A004103] = .ok (.vcmp .lt .i32 (tri 4 1 false 2 3 none)) ∧
    decodeWords 5 [0x03004103] = .ok (.mlds (tri 5 1 false 2 3 none)) ∧
    decodeWords 6 [0x09004103, 5] = .ok (.cpy (tri 6 1 false 2 3 (some 5))) ∧
    decodeWords 7 [0x01000110] = .ok (.waitt { slot := 7, pred := 0, d := 0, ba := false, a := 2, imm := 16, long := false }) ∧
    decodeWords 7 [0x11000000] = .ok (.endTask { slot := 7, pred := 0 })) ∧
  (decodeHelper 0x00C5850B = .ok (.lxCpy { rd := 10, rs1 := 11, rs2 := 12 }) ∧
    decodeHelper 0x0105128B = .ok (.lxWaitt { rd := 5, rs1 := 10, imm := 16 }) ∧
    decodeDist 0x00C5852B = .ok (.lxBind { rd := 10, rs1 := 11, rs2 := 12 }) ∧
    decodeDist 0x0005A503 = .ok (.riscvLoad .lw { rd := 10, rs1 := 11, imm := 0 })) ∧
  (decodeHeader 0x80000001 = some { words := 1, rep := 0, rot := false, nomerge := false, codes := [0, 0, 0, 0, 0, 0, 0, 0] } ∧
    decodeHeader 0x80008002 = some { words := 2, rep := 0, rot := false, nomerge := false, codes := [2, 0, 0, 0, 0, 0, 0, 0] } ∧
    decodeHeader 0x40008002 = none ∧ decodeWords 0 [0x07000000] = .error .unassigned ∧
    decodeWords 0 [0x800FFFFE] = .error .field ∧ decodeWords 1 [0x0121437F] = .ok
      (.add { slot := 1, pred := 2, d := 5, ba := false, a := 6, bb := true, b := 63, ext := none }))

/-- R204, R220, R332, R339: the decoder reads back what the encoder writes, for every well-formed native operation in its
slot (a store through a descriptor is a VST whose address says so when it runs), and for every well-formed word of a
helper and of a distributor: the rows of their own, and the base loads, stores, AMOs, FENCE and WFI of the table. -/
def Obligations.DecodingInvertsEncoding : Prop :=
  (∀ (i : Instr) (slot pred : Nat), i.guard = some (slot, pred) → i.wf = true → (∀ t, i ≠ .vstDescriptor t) →
    decodeWords slot (encode i) = .ok i) ∧
  (∀ r : RType, ∀ i ∈ [Instr.lxCpy r, .lxSbind r, .lxSpush r, .lxSpop r, .lxSstat r, .lxStage r, .lxXbase r, .lxEv r, .lxEnd r],
    i.wf = true → ∃ w, encode i = [w] ∧ w < 2 ^ 32 ∧ decodeHelper w = .ok i) ∧
  (∀ t : IType, ∀ i ∈ [Instr.lxWaitt t, .lxReadt t, .lxReadth t],
    i.wf = true → ∃ w, encode i = [w] ∧ w < 2 ^ 32 ∧ decodeHelper w = .ok i) ∧
  (∀ r : RType, ∀ i ∈ [Instr.lxBind r, .lxRel r, .lxJwr r, .lxAsid r, .lxInval r, .lxMark r, .lxAnsw r, .lxEvget r, .lxEvput r,
      .lxKscan r], i.wf = true → ∃ w, encode i = [w] ∧ w < 2 ^ 32 ∧ decodeDist w = .ok i) ∧
  (∀ (z : RvLoad) (t : IType), (Instr.riscvLoad z t).wf = true → ∃ w, encode (.riscvLoad z t) = [w] ∧ w < 2 ^ 32 ∧
    decodeDist w = .ok (.riscvLoad z t) ∧ (z ≠ .ld → z ≠ .lwu → decodeHelper w = .ok (.riscvLoad z t))) ∧
  (∀ (z : MemSize) (t : SType), (Instr.riscvStore z t).wf = true → ∃ w, encode (.riscvStore z t) = [w] ∧ w < 2 ^ 32 ∧
    decodeDist w = .ok (.riscvStore z t) ∧ (z ≠ .b8 → decodeHelper w = .ok (.riscvStore z t))) ∧
  (∀ (op : RvAmo) (dbl aq rl : Bool) (r : RType), (Instr.riscvAmo op dbl aq rl r).wf = true →
    ∃ w, encode (.riscvAmo op dbl aq rl r) = [w] ∧ w < 2 ^ 32 ∧ decodeDist w = .ok (.riscvAmo op dbl aq rl r)) ∧
  (∀ fm p q : Nat, (Instr.riscvFence fm p q).wf = true → ∃ w, encode (.riscvFence fm p q) = [w] ∧ w < 2 ^ 32 ∧
    decodeHelper w = .ok (.riscvFence fm p q) ∧ decodeDist w = .ok (.riscvFence fm p q)) ∧
  ∃ w, encode .wfi = [w] ∧ w < 2 ^ 32 ∧ decodeDist w = .ok .wfi

/-- R199, R206, R347, R441, R442: a step runs what it decodes, and stops nowhere but after a thermal trip. The head of the
agenda runs first: an event (one that does not reach a package held in reset is dropped while the supply is out of range),
a memory error, or a turn of an agent once nothing is due that a turn cannot leave for later. Then comes the internal event
that is due; a helper or a distributor runs the word it fetched; the operation of a bundle of one runs on the state before
the bundle, and its next state is the bundle's end, its wait or its trap; a core's turn is one cycle in which a context
that may issue fires its bundle (the order of agenda, events and agents is the model's own, log entry 25). -/
def Obligations.StepRunsDecoded : Prop :=
  (∀ s : State, (s.mgmt.tripped = true → step s = .fault .poweredOff) ∧ (s.mgmt.tripped = false → ∃ t, step s = .next t)) ∧
  (∀ (s : State) (i : Instr) (r : List Input), s.mgmt.tripped = false → s.agenda = .event i :: r →
    (s.mgmt.supply = true ∨ reachesReset i = true → step s = exec i { s with agenda := r }) ∧
    (s.mgmt.supply = false → reachesReset i = false → step s = .next { s with agenda := r })) ∧
  (∀ (s : State) (e : MemError) (r : List Input), s.mgmt.tripped = false → s.agenda = .error e :: r →
    step s = .next (({ s with agenda := r } : State).memError e)) ∧
  (∀ (s : State) (a : Agent) (r : List Input), s.mgmt.tripped = false → s.agenda = .turn a :: r →
    s.dueNow = none → step s = ({ s with agenda := r, focus := a } : State).turn) ∧
  (∀ (s : State) (i : Instr), s.mgmt.tripped = false → s.agenda = [] → s.auto = some i → step s = exec i s) ∧
  (∀ (s s1 t : State) (i : Instr) (w len : Nat), s.mgmt.tripped = false → s.agenda = [] → s.auto = none →
    (match s.focus with
      | .loader c => (s.helper c false).running = true
      | .storer c => (s.helper c true).running = true
      | .dist d => s.runsFirmware d = true ∧ s.interrupt d = none
      | _ => False) →
    s.hartFetch = .word w len s1 → s1.hartDecode w = .ok i → exec i s1 = .next t →
    let u := t.hartEnd s.hpc len none
    step s = .next { u with focus := nextAgent u.focus u.agents }) ∧
  (∀ (s t : State) (b : Bundle) (slot : Nat) (i : Instr), b.ops = [(slot, some i)] → misplaced i b.words b.rep = false →
    exec i { s with before := some (s.cur, s.nextId), mark := .clean } = .next t →
    s.issueBundle exec b = match t.mark with
      | .clean => .done (t.retire b)
      | .waits => .waits { t with before := none, mark := .clean }
      | _ => .done t.close) ∧
  (∀ (s : State) (c x : Nat) (b : Bundle), let s1 : State := { s with focus := .ctx c x }
    s1.bundle = .ok b → s.fire exec c x = match s1.issueBundle exec b with | .done t => t | .waits t => t) ∧
  ∀ (s : State) (c x : Nat), s.mgmt.tripped = false → s.agenda = [] → s.auto = none → s.focus = .ctx c x →
    let u := s.coreCycle exec c
    step s = .next { u with focus := nextAgent u.focus u.agents }

/-- What package reset leaves, as the tables of R42, R50, R57, R70, R74, R132, R171, R177, R192, R196, R212, R309, R348,
R367, R393 and R443 give it: every byte 0 and unpoisoned (of the second tier and of host memory the model's choice, log
entry 4), the context, core, die and package registers at their reset values; and, where the spec gives none, the
model's own choice of full registers holding 0 (log entry 2). -/
def Obligations.ResetValues : Prop :=
  let s := State.reset
  (Memory.wf s.mem ∧ (∀ k, s.byte k = 0) ∧ (∀ k, s.linePoison k = false) ∧ s.net = [] ∧ s.parked = [] ∧ s.spaces = [] ∧
    s.lamp = 0 ∧ s.logSeq = 0 ∧ s.mapPend = [] ∧ s.replies = [] ∧ s.results = [] ∧ s.agenda = [] ∧ s.before = none) ∧
  (∀ c x, let k := s.ctx c x
    k.task = none ∧ k.gb = 0 ∧ k.vb = 0 ∧ k.pb = 0 ∧ k.sat = false ∧ k.satcnt = 0 ∧ k.sperr = false ∧ k.sperrcnt = 0 ∧
      k.rngkey = 0 ∧ k.rngctr = 0 ∧ k.rngstep = 0 ∧ k.cbV = false ∧ k.cbAddr = 0 ∧ k.cpatSteps = 0 ∧ k.cpatLen = 0 ∧
      k.ls.e = 0 ∧ k.ls.min = 0x80 ∧ k.ls.max = 0x7F ∧ k.ls.cnt = 0 ∧ k.ls.int = 0x7D0 ∧ k.ls.floor = 0 ∧ k.ls.fte = false ∧
      k.loop.count = 0 ∧ k.loop.sm1 = 0 ∧ k.loop.act = false ∧ k.loop.x = false ∧ k.loop.exited = false ∧
      k.trap.vecEn = false ∧ k.trap.vecAddr = 0 ∧ k.trap.pc = 0 ∧ k.trap.code = 0 ∧ k.trap.addr = 0 ∧ k.trap.pc2 = 0 ∧
      k.trap.code2 = 0 ∧ k.trap.crit = false ∧ k.trap.hdepth = 0 ∧ k.regions = [] ∧ k.decl = false ∧ k.declFirst = 0 ∧
      (∀ n, k.dAt n = 0) ∧ (∀ n, (k.qAt n).bound = false) ∧
      ∀ n, k.gAt n = { val := 0, full := true, poison := false } ∧ (k.vAt n).full = true ∧ (k.pAt n).full = true ∧
        (k.pAt n).val = decide (n = 0)) ∧
  (∀ c, let k := s.core c
    k.cycle = 0 ∧ k.frzcnt = 0 ∧ k.dslots = 512 ∧ (∀ i, k.tags.get i 0 = 0) ∧ k.spills = [] ∧ k.stage = 0 ∧
      (∀ t, (k.acc.get t {}).full = true ∧ (k.acc.get t {}).poison = 0 ∧ (k.acc.get t {}).claim = none ∧
        ∀ i j, i < 128 → j < 128 → ((k.acc.get t {}).row i).getD j 0 = 0) ∧
      (∀ b, (k.buf b).owner = none ∧ (k.buf b).ready = true ∧ (k.buf b).pois = false) ∧
      (∀ e, (s.tl c e).done = 0 ∧ (s.tl c e).issued = 0)) ∧
  (∀ d, let k := s.die d
    k.jtail = 0 ∧ k.role = false ∧ k.intrap = false ∧ k.kicks = 0 ∧ k.evq = [] ∧ k.amoAddr = 0 ∧ k.amoOld = 0 ∧
      k.amoJseq = 0 ∧ (∀ cl, (k.lp.get cl {}).l = [0, 1, 2, 3] ∧ (k.lp.get cl {}).relief = 4) ∧
      ∀ h, k.sent.get h 0 = 0 ∧ k.applied.get h 0 = 0 ∧ k.acked.get h 0 = 0) ∧
  (∀ b, (s.barrier b).mask = 0 ∧ (s.barrier b).gen = 0) ∧
  (∀ q, (s.queue q).v = false ∧ (s.queue q).state = 0 ∧ (s.queue q).head = 0 ∧ (s.queue q).tail = 0) ∧
  (∀ w, (s.window w).v = false ∧ (s.window w).count = 0) ∧
  (∀ p, let k := s.port p
    k.busy = false ∧ k.stat = 0 ∧ k.code = 0 ∧ k.doneN = 0 ∧ k.evbase = 0 ∧ k.evtail = 0 ∧ k.evhead = 0 ∧ k.evlost = 0 ∧
      k.brerr = 0) ∧
  s.ck.cur = 1 ∧ s.ck.committed = 0 ∧ s.ck.pending = 0 ∧ s.ck.phase = 0 ∧ s.mgmt.fog = 2000000 ∧ s.mgmt.pwrcap = 4600 ∧
    s.mgmt.tlim = 95 ∧ s.mgmt.tmax = 0 ∧ s.mgmt.pwrnow = 0 ∧ s.mgmt.bootPhase = 0

/-- The memory list stays in its one form: whatever runs, a step leaves keys strictly rising and no byte listed that reads
as if unlisted. -/
def Obligations.StepKeepsMemoryCanonical : Prop :=
  ∀ s t : State, Memory.wf s.mem → step s = .next t → Memory.wf t.mem

/-! ## The scalar map -/

/-- R228: the arithmetic, logic and move operations write the values of the table, ADD to MAXN without saturating and ABS
saturating with one event, at latency 1 and the products at latency 3; a poisoned source poisons the result, which then
counts nothing (R227). -/
def Obligations.ScalarArithmetic : Prop :=
  (∀ (t : Tri) (s : State), s.grants t.pred (srcsAB t) [s.dg t.d] [] →
    let a := s.valA t
    let b := s.valB t
    let gives (i : Instr) (L : Nat) (v : Int) : Prop := scalarYields i s L t.d (srcsAB t) v 0
    gives (.add t) 1 (a.toInt + b.toInt) ∧ gives (.sub t) 1 (a.toInt - b.toInt) ∧ gives (.mul t) 3 (a.toInt * b.toInt) ∧
      gives (.mulh t) 3 (a.toInt * b.toInt / 2 ^ 64) ∧ gives (.mulhn t) 3 (a.toNat * b.toNat / 2 ^ 64 : Nat) ∧
      gives (.and t) 1 (a &&& b).toInt ∧ gives (.or t) 1 (a ||| b).toInt ∧ gives (.xor t) 1 (a ^^^ b).toInt ∧
      gives (.andn t) 1 (a &&& ~~~b).toInt ∧ gives (.min t) 1 (min a.toInt b.toInt) ∧
      gives (.minn t) 1 (min a.toNat b.toNat : Nat) ∧ gives (.max t) 1 (max a.toInt b.toInt) ∧
      gives (.maxn t) 1 (max a.toNat b.toNat : Nat)) ∧
  (∀ (t : Tri) (s : State), s.grants t.pred [srcA t] [s.dg t.d] [] →
    let a := s.valA t
    scalarYields (.mov t) s 1 t.d [srcA t] a.toInt 0 ∧
      scalarYields (.abs t) s 1 t.d [srcA t] (if a.toInt = -2 ^ 63 then 2 ^ 63 - 1 else a.toInt.natAbs)
        (if a.toInt = -2 ^ 63 then 1 else 0)) ∧
  (∀ (t : ImmF) (s : State), s.grants t.pred [.g t.a t.ba] [s.dg t.d] [] →
    let a := (s.g t.a).val
    let gives (i : Instr) (v : Int) : Prop := scalarYields i s 1 t.d [.g t.a t.ba] v 0
    gives (.addi t) (a.toInt + t.imm) ∧ gives (.andi t) (a &&& wd t.imm).toInt ∧ gives (.ori t) (a ||| wd t.imm).toInt ∧
      gives (.xori t) (a ^^^ wd t.imm).toInt) ∧
  ∀ (t : ImmF) (s : State), s.grants t.pred [] [s.dg t.d] [] → scalarYields (.movi t) s 1 t.d [] t.imm 0

/-- R229, R230, R231: shifts by the amount modulo 64, rotates, bit counts, bit fields and selection. -/
def Obligations.ShiftsAndFields : Prop :=
  (∀ (t : Tri) (s : State), s.grants t.pred (srcsAB t) [s.dg t.d] [] →
    let a := s.valA t
    let n := (s.valB t).toNat % 64
    let c := s.ctlB t
    let pos := c % 64
    let w := min (c / 256 % 128) (64 - pos)
    let gives (i : Instr) (v : Int) : Prop := scalarYields i s 1 t.d (srcsAB t) v 0
    gives (.shl t) (a.toNat * 2 ^ n : Nat) ∧ gives (.shr t) (a.toNat / 2 ^ n : Nat) ∧ gives (.sar t) (a.toInt / 2 ^ n) ∧
      gives (.rol t) (a.toNat * 2 ^ n + a.toNat / 2 ^ (64 - n) : Nat) ∧
      gives (.ext t) (if w = 0 then 0
        else if c / 2 ^ 16 % 2 = 1 ∧ a.toNat / 2 ^ (pos + w - 1) % 2 = 1 then (a.toNat / 2 ^ pos % 2 ^ w : Nat) - 2 ^ w
        else (a.toNat / 2 ^ pos % 2 ^ w : Nat))) ∧
  (∀ (t : Tri) (s : State) (r : Word), s.grants t.pred (srcsAB t ++ [.g t.d true]) [s.dg t.d] [] →
    let pos := s.ctlB t % 64
    let w := min (s.ctlB t / 256 % 128) (64 - pos)
    (∀ j < 64, r.getLsbD j = if pos ≤ j ∧ j < pos + w then (s.valA t).getLsbD (j - pos) else (s.g t.d).val.getLsbD j) →
    scalarYields (.ins t) s 1 t.d (srcsAB t ++ [.g t.d true]) r.toInt 0) ∧
  (∀ (t : Tri) (s : State) (c : Nat), s.grants t.pred [srcA t] [s.dg t.d] [] →
    let a := (s.valA t).toNat
    ((if a = 0 then c = 64 else c < 64 ∧ 2 ^ (63 - c) ≤ a ∧ a < 2 ^ (64 - c)) →
      scalarYields (.clz t) s 1 t.d [srcA t] c 0) ∧
    ((if a = 0 then c = 64 else a % 2 ^ c = 0 ∧ a % 2 ^ (c + 1) ≠ 0) → scalarYields (.ctz t) s 1 t.d [srcA t] c 0) ∧
    scalarYields (.popc t) s 1 t.d [srcA t] ((List.range 64).filter (s.valA t).getLsbD).length 0) ∧
  (∀ (t : ImmF) (s : State), s.grants t.pred [.g t.a t.ba] [s.dg t.d] [] → 0 ≤ t.imm → t.imm < 64 →
    let a := (s.g t.a).val
    let n := t.imm.toNat
    let gives (i : Instr) (v : Int) : Prop := scalarYields i s 1 t.d [.g t.a t.ba] v 0
    gives (.shli t) (a.toNat * 2 ^ n : Nat) ∧ gives (.shri t) (a.toNat / 2 ^ n : Nat) ∧ gives (.sari t) (a.toInt / 2 ^ n)) ∧
  ∀ (t : Tri) (s : State) (c : Nat), t.ext = some c →
    s.grants t.pred [srcA t, srcB t, .p c true] [s.dg t.d] [srcA t, srcB t] →
    yields (.sel t) s 1 (s.dg t.d) (wide (if (s.p c).val then (s.g t.a).val else (s.g t.b).val)) false 0

/-- R232 and R233: a compare writes 1 when its relation holds and 0 otherwise; PAND, POR, PXOR and PNOT write the logic of
their P sources. -/
def Obligations.ComparesAndPredicates : Prop :=
  (∀ (t : Tri) (s : State), s.grants t.pred (srcsAB t) [s.dp t.d] (srcsAB t) →
    let a := s.valA t
    let b := s.valB t
    let gives (cc : Cond) (r : Bool) : Prop := yields (.cmp cc t) s 1 (s.dp t.d) (bitVec r) false 0
    gives .eq (a == b) ∧ gives .ne (a != b) ∧ gives .lt (decide (a.toInt < b.toInt)) ∧
      gives .ge (decide (a.toInt ≥ b.toInt)) ∧ gives .ltn (decide (a.toNat < b.toNat)) ∧
      gives .gen (decide (a.toNat ≥ b.toNat))) ∧
  (∀ (t : ImmF) (s : State), s.grants t.pred [.g t.a t.ba] [s.dp t.d] [.g t.a t.ba] →
    let a := (s.g t.a).val
    let b := wd t.imm
    let gives (cc : Cond) (r : Bool) : Prop := yields (.cmpi cc t) s 1 (s.dp t.d) (bitVec r) false 0
    gives .eq (a == b) ∧ gives .ne (a != b) ∧ gives .lt (decide (a.toInt < b.toInt)) ∧
      gives .ge (decide (a.toInt ≥ b.toInt)) ∧ gives .ltn (decide (a.toNat < b.toNat)) ∧
      gives .gen (decide (a.toNat ≥ b.toNat))) ∧
  (∀ (t : Tri) (s : State), s.grants t.pred [.p t.a t.ba, .p t.b t.bb] [s.dp t.d] [] →
    let a := (s.p t.a).val
    let b := (s.p t.b).val
    yields (.pand t) s 1 (s.dp t.d) (bitVec (a && b)) false 0 ∧ yields (.por t) s 1 (s.dp t.d) (bitVec (a || b)) false 0 ∧
      yields (.pxor t) s 1 (s.dp t.d) (bitVec (a != b)) false 0) ∧
  ∀ (t : Tri) (s : State), s.grants t.pred [.p t.a t.ba] [s.dp t.d] [] →
    yields (.pnot t) s 1 (s.dp t.d) (bitVec (!(s.p t.a).val)) false 0

/-- R234 to R241: SHRN rounds to nearest-even, SHRS adds the usable random bits, SATS clamps and counts a change, DIVF and
REMF divide with floor, RCPN and RSQN write their pairs, RND draws a word and steps RNGCTR. -/
def Obligations.ScalarRoutines : Prop :=
  (∀ (t : Tri) (s : State) (q : Int), s.grants t.pred (srcsAB t) [s.dg t.d] [] →
    let a := (s.valA t).toInt
    let n := match t.ext with | some e => e | none => min (s.g t.b).val.toNat 64
    let r := 2 * (a - q * 2 ^ n)
    r ≤ 2 ^ n → -2 ^ n ≤ r → (r = 2 ^ n ∨ r = -2 ^ n → q % 2 = 0) → scalarYields (.shrn t) s 1 t.d (srcsAB t) q 0) ∧
  (∀ (t : Tri) (s : State) (c : Nat), t.ext = some c → s.grants t.pred [srcA t, srcB t] [s.dg t.d] [] →
    let x := (s.g t.a).val.toInt
    let r := (s.g t.b).val.toNat
    let n := c % 64
    let k := c / 256 % 128
    scalarYields (.shrs t) s 1 t.d [srcA t, srcB t]
      (if n = 0 then x else if n ≤ k then (x + (r % 2 ^ n : Nat)) / 2 ^ n
       else (x + ((r % 2 ^ k) * 2 ^ (n - k) : Nat)) / 2 ^ n) 0) ∧
  (∀ (t : Tri) (s : State), s.grants t.pred (srcsAB t) [s.dg t.d] [] →
    let a := (s.valA t).toInt
    let b := (s.valB t).toInt
    let w := min (max (s.ctlB t % 128) 1) 64
    let y : Int := if s.ctlB t / 128 % 2 = 1 then min (max a 0) (2 ^ w - 1) else min (max a (-2 ^ (w - 1))) (2 ^ (w - 1) - 1)
    scalarYields (.sats t) s 1 t.d (srcsAB t) y (if y = a then 0 else 1) ∧
      (b = 0 → scalarYields (.divf t) s 36 t.d (srcsAB t) (if a > 0 then 2 ^ 63 - 1 else if a < 0 then -2 ^ 63 else 0) 1 ∧
        scalarYields (.remf t) s 36 t.d (srcsAB t) 0 1) ∧
      ∀ q : Int, b ≠ 0 → (0 < b → q * b ≤ a ∧ a < (q + 1) * b) → (b < 0 → a ≤ q * b ∧ (q + 1) * b < a) →
        scalarYields (.divf t) s 36 t.d (srcsAB t) (min q (2 ^ 63 - 1)) (if q = 2 ^ 63 then 1 else 0) ∧
          scalarYields (.remf t) s 36 t.d (srcsAB t) (a - b * q) 0) ∧
  (∀ (t : Tri) (s : State), s.grants t.pred [srcA t] [s.dg t.d, s.dg (t.d + 1)] [] →
    let u := (s.valA t).toNat
    let p := s.anyPoison [srcA t]
    let pair (i : Instr) (L : Nat) (x y : Int) (n : Nat) : Prop := answers i s fun t' =>
      s.queued t' [s.due L (s.dg t.d) (wide (wd x)) p (if p then 0 else n), s.due L (s.dg (t.d + 1)) (wide (wd y)) p 0]
    (u = 0 → pair (.rcpn t) 10 (2 ^ 63 - 1) 64 1 ∧ pair (.rsqn t) 14 (2 ^ 63 - 1) 32 1) ∧
      (∀ k : Nat, 2 ^ 63 ≤ u * 2 ^ k → u * 2 ^ k < 2 ^ 64 →
        pair (.rcpn t) 10 (min (2 ^ 126 / (u * 2 ^ k)) (2 ^ 63 - 1) : Nat) k 0) ∧
      ∀ k m : Nat, k % 2 = 0 → 2 ^ 62 ≤ u * 2 ^ k → u * 2 ^ k < 2 ^ 64 → m ^ 2 * (u * 2 ^ k) ≤ 2 ^ 188 →
        2 ^ 188 < (m + 1) ^ 2 * (u * 2 ^ k) → pair (.rsqn t) 14 (min m (2 ^ 63 - 1) : Nat) (k / 2 : Nat) 0) ∧
  ∀ (t : Tri) (s : State), s.grants t.pred [] [s.dg t.d] [] →
    answers (.rnd t) s fun t' => ∃ u, s.queued u [s.due 2 (s.dg t.d) (wide (mix s.old.rngkey s.cur.rngctr s.old.rngstep)) false 0] ∧
      t' = u.onCur fun k => { k with rngctr := k.rngctr + 1 }

/-! ## Branches, calls and loops -/

/-- R218, R242, R243, R244, R249: outside a shadow bundle a taken branch or return goes to its target after one shadow
bundle and abandons an active loop, BRC goes at once, cancels the shadow it fetches and is no candidate in the next
cycle, and a call writes the address after the shadow bundle to its link register. In a shadow bundle each is illegal,
and so is a register target that is no multiple of 4; a call whose own or shadow header cannot be fetched takes the
fetch trap (CALLR with d = 0, too, asks for both headers, log entry 68). -/
def Obligations.BranchesGo : Prop :=
  (∀ (t : DispF) (s : State), s.grants t.pred [] [] [] → s.old.target = none →
    let there := headerAt s.old.pc t.disp
    answers (.bra t) s (fun u => leavesFor s u (.shadow there)) ∧
    answers (.brc t) s (fun u => u.mem = s.mem ∧ u.poison = s.poison ∧ (∀ c x, ¬ (c = s.fc ∧ x = s.fx) → u.ctx c x = s.ctx c x) ∧
      u.cur = { s.cur with loop := s.cur.loop.abandoned, redirect := some (.to there), startAt := s.fcore.cycle + 2 }) ∧
    ∀ h1 h2 ws,
      let sh := (s.old.pc + 4 * (h1 % 16)) % 2 ^ 56
      s.fetch s.focus s.old.asid s.old.pc = .word h1 → s.fetch s.focus s.old.asid sh = .word h2 →
      s.fetchWords s.focus s.old.asid (sh + 4) (h2 % 16 - 1) = .ok ws →
      answers (.brc t) s fun u => ∃ v, leavesFor s v (.to there) ∧ u = v.onCur fun k => { k with startAt := s.fcore.cycle + 2 }) ∧
  (∀ (t : Tri) (s : State), s.grants t.pred [srcA t] [] [srcA t] → s.old.target = none → (s.g t.a).val.toNat % 4 = 0 →
    answers (.brr t) s (fun u => leavesFor s u (.shadow (s.g t.a).val.toNat)) ∧
      answers (.ret t) s fun u => leavesFor s u (.shadow (s.g t.a).val.toNat)) ∧
  (∀ (t : DispF) (s : State) (h1 h2 : Nat), s.grants t.pred [] [.g 31] [] → s.old.target = none →
    let sh := (s.old.pc + 4 * (h1 % 16)) % 2 ^ 56
    s.fetch s.focus s.old.asid s.old.pc = .word h1 → s.fetch s.focus s.old.asid sh = .word h2 →
    answers (.call t) s fun u => ∃ v, s.wrote v (.g 31) (BitVec.ofNat 2048 ((sh + 4 * (h2 % 16)) % 2 ^ 56)) false 0 ∧
      leavesFor v u (.shadow (headerAt s.old.pc t.disp))) ∧
  (∀ (t : Tri) (s : State) (h1 h2 : Nat), s.grants t.pred [srcA t] [s.dg t.d] [srcA t] → s.old.target = none →
    (s.g t.a).val.toNat % 4 = 0 →
    let sh := (s.old.pc + 4 * (h1 % 16)) % 2 ^ 56
    s.fetch s.focus s.old.asid s.old.pc = .word h1 → s.fetch s.focus s.old.asid sh = .word h2 →
    answers (.callr t) s fun u => ∃ v, s.wrote v (s.dg t.d) (BitVec.ofNat 2048 ((sh + 4 * (h2 % 16)) % 2 ^ 56)) false 0 ∧
      leavesFor v u (.shadow (s.g t.a).val.toNat)) ∧
  (∀ (t : DispF) (s : State), s.grants t.pred [] [.g 31] [] →
    (s.old.target ≠ none → ∀ i ∈ [Instr.bra t, .brc t, .call t], exec i s = .next (s.trap 2 0 t.slot)) ∧
    (s.old.target = none → ∀ a, s.fetch s.focus s.old.asid s.old.pc = .bad a →
      exec (.call t) s = .next (s.trap 10 (BitVec.ofNat 64 a) 0)) ∧
    (s.old.target = none → ∀ h1 a, s.fetch s.focus s.old.asid s.old.pc = .word h1 →
      s.fetch s.focus s.old.asid ((s.old.pc + 4 * (h1 % 16)) % 2 ^ 56) = .bad a →
      exec (.call t) s = .next (s.trap 10 (BitVec.ofNat 64 a) 0))) ∧
  (∀ (t : Tri) (s : State), s.grants t.pred [srcA t] [s.dg t.d] [srcA t] → s.old.target = none →
    (s.g t.a).val.toNat % 4 = 0 →
    (∀ a, s.fetch s.focus s.old.asid s.old.pc = .bad a → exec (.callr t) s = .next (s.trap 10 (BitVec.ofNat 64 a) 0)) ∧
    ∀ h1 a, s.fetch s.focus s.old.asid s.old.pc = .word h1 →
      s.fetch s.focus s.old.asid ((s.old.pc + 4 * (h1 % 16)) % 2 ^ 56) = .bad a →
      exec (.callr t) s = .next (s.trap 10 (BitVec.ofNat 64 a) 0)) ∧
  (∀ (t : Tri) (s : State), s.grants t.pred [srcA t] [s.dg t.d] [srcA t] →
    s.old.target ≠ none ∨ (s.g t.a).val.toNat % 4 ≠ 0 →
    ∀ i ∈ [Instr.brr t, .ret t, .callr t], exec i s = .next (s.trap 2 0 t.slot)) ∧
  ∀ (k : Ctx) (target : Option Nat) (b : Bundle) (a : Nat),
    let v := k.advance target b
    (k.redirect = some (.shadow a) → v.pc = (b.addr + 4 * b.words) % 2 ^ 56 ∧ v.issue = 0 ∧ v.target = some a) ∧
    (k.redirect = some (.to a) → v.pc = a ∧ v.issue = 0 ∧ v.target = none) ∧
    (k.redirect = none → target = some a → (k.loop.act = true → k.loop.last ≠ b.addr) →
      v.pc = a ∧ v.issue = 0 ∧ v.target = none)

/-- R247: LOOP and LOOPX with a count n above 0 and S stages set the loop registers, clear the rotation bases, set P8 and
clear P9 to P15; with n = 0 the context goes on after the loop's last bundle. -/
def Obligations.LoopsBegin : Prop :=
  (∀ (t : ImmF) (s : State) (h : Nat), s.grants t.pred [.g t.a t.ba] [] [.g t.a t.ba] → s.old.target = none →
    s.old.loop.act = false → 0 < (s.g t.a).val.toNat → s.fetch s.focus s.old.asid s.old.pc = .word h →
    let begun (x : Bool) (u : State) : Prop :=
      s.elsewhere u ∧
      u.cur.loop = { count := min ((s.g t.a).val.toNat + t.d) (2 ^ 64 - 1), sm1 := t.d, act := true, x, exited := false,
                     start := (s.old.pc + 4 * (h % 16)) % 2 ^ 56, last := headerAt s.old.pc t.imm } ∧
      u.cur.gb = 0 ∧ u.cur.vb = 0 ∧ u.cur.pb = 0 ∧ u.cur.pAt 8 = { val := true, full := true } ∧
      (∀ n, 9 ≤ n → n ≤ 15 → u.cur.pAt n = { val := false, full := true }) ∧
      u.cur.keeps s.cur ((List.range 8).map fun n => .p (8 + n)) ∧
      { u.cur with p := s.cur.p, gb := s.cur.gb, vb := s.cur.vb, pb := s.cur.pb, loop := s.cur.loop,
                   loopBegan := s.cur.loopBegan } = s.cur
    answers (.loop t) s (begun false) ∧ answers (.loopx t) s (begun true)) ∧
  ∀ (t : ImmF) (s : State) (h : Nat), s.grants t.pred [.g t.a t.ba] [] [.g t.a t.ba] → s.old.target = none →
    s.old.loop.act = false → (s.g t.a).val = 0 →
    let last := headerAt s.old.pc t.imm
    s.fetch s.focus s.old.asid last = .word h →
    let skips (u : State) : Prop := u = s.onCur fun k =>
      { k with redirect := some (.to ((last + 4 * (h % 16)) % 2 ^ 56)), loopBegan := true }
    answers (.loop t) s skips ∧ answers (.loopx t) s skips

/-- R202, R248: at the end of a pass the bases fall by one, the count falls by one, or to S - 1 when the exit of LOOPX
strikes, the new P8 says whether another kernel pass starts, and the loop stays active while the count is above 0; the
context goes on at the loop's start, or after its last bundle when it is over, without a second rotation. -/
def Obligations.LoopPassEnds : Prop :=
  (∀ k : Ctx, let u := k.passEnd
    let exit : Bool := k.loop.x && !k.loop.exited && (k.pAt 7).val
    let count := if exit then min (k.loop.count - 1) k.loop.sm1 else k.loop.count - 1
    u.loop.count = count ∧ u.loop.exited = (k.loop.exited || exit) ∧ u.loop.act = decide (0 < count) ∧
      u.gb = (k.gb + 31) % 32 ∧ u.vb = (k.vb + 31) % 32 ∧ u.pb = (k.pb + 7) % 8 ∧
      u.pAt (rot8 u.pb 8) = { val := decide (k.loop.sm1 < count) && !(k.loop.exited || exit), full := true } ∧
      u.loop.sm1 = k.loop.sm1 ∧ u.loop.x = k.loop.x ∧ u.loop.start = k.loop.start ∧ u.loop.last = k.loop.last ∧
      u.keeps k [.p (rot8 u.pb 8)] ∧ (∀ b d p n, n < 32 → rot32 b (32 + n) < 64 ∧ rot32 d n = n ∧ rot8 p 7 = 7)) ∧
  ∀ (k : Ctx) (target : Option Nat) (b : Bundle), k.redirect = none → k.loop.act = true → k.loop.last = b.addr →
    let u := k.passEnd
    let v := k.advance target b
    v.pc = (if u.loop.act then k.loop.start else (b.addr + 4 * b.words) % 2 ^ 56) ∧ v.issue = 0 ∧ v.target = none ∧
      v.loop = u.loop ∧ v.gb = u.gb ∧ v.vb = u.vb ∧ v.pb = u.pb ∧ v.keeps u []

/-! ## The memory map -/

/-- R14 and R252 to R256: loads send a read of the form's bytes and land extended at c + N, stores send their element, a
release waits at its source; VLD and VST move 256 raw bytes. An access whose bytes are all out of range, and an LDA or STL
that is not naturally aligned, is declined at once: the load lands poisoned, the store is dropped and sets the
declined-store flag. A release whose context has a declined store takes the access-declined trap. -/
def Obligations.LoadsAndStores : Prop :=
  (∀ (t : LandF) (s : State), s.grants t.pred [.g t.a t.ba] [s.dg t.d] [.g t.a t.ba] →
    let va := ((s.g t.a).val + BitVec.ofInt 64 t.disp).toNat
    let ld (z : LdKind) (n : Nat) (c : Conv) : Prop :=
      (s.reaches va n → loads (.ld z t) s t.land (s.dg t.d) .load [.read va n] c false none) ∧
        (s.misses va n → lost (.ld z t) s t.land (s.dg t.d) true)
    (ld .i8 1 (.sext 8) ∧ ld .i16 2 (.sext 16) ∧ ld .i32 4 (.sext 32) ∧ ld .i64 8 (.zext 64) ∧ ld .n8 1 (.zext 8) ∧
        ld .n16 2 (.zext 16) ∧ ld .n32 4 (.zext 32)) ∧
      ∀ sc z, (va % mBytes z = 0 → s.reaches va (mBytes z) →
          loads (.lda sc z t) s t.land (s.dg t.d) .load [.read va (mBytes z)] (.zext (8 * mBytes z)) false none) ∧
        (va % mBytes z ≠ 0 ∨ s.misses va (mBytes z) → lost (.lda sc z t) s t.land (s.dg t.d) true)) ∧
  (∀ (t : StoreF) (s : State), s.grants t.pred [.g t.src t.bs, .g t.a t.ba] [] [.g t.a t.ba] →
    let va := ((s.g t.a).val + BitVec.ofInt 64 t.off).toNat
    ∀ z,
    let x := sx ((s.g t.src).val.toNat : Nat) (8 * mBytes z)
    let e := Piece.elem va 0 x (8 * mBytes z) false false 0 0 (s.g t.src).poison
    let n := mBytes z
    (s.reaches va n → stores (.st z t) s [e] .none false) ∧ (s.misses va n → declines (.st z t) s va) ∧
      ∀ sc, (s.old.decl = false → va % n = 0 → s.reaches va n → stores (.stl sc z t) s [e] .none true) ∧
        (s.old.decl = false → va % n ≠ 0 ∨ s.misses va n → declines (.stl sc z t) s va) ∧
        (s.old.decl = true → exec (.stl sc z t) s = .next (s.trap 5 (BitVec.ofNat 64 s.old.declFirst) t.slot))) ∧
  (∀ (t : LandF) (s : State), s.grants t.pred [.g t.a t.ba] [s.dv t.d] [.g t.a t.ba] →
    let va := ((s.g t.a).val + BitVec.ofInt 64 t.disp).toNat
    (s.reaches va 256 → loads (.vld t) s t.land (s.dv t.d) .load [.read va 256] .vec false none) ∧
      (s.misses va 256 → lost (.vld t) s t.land (s.dv t.d) true)) ∧
  ∀ (t : StoreF) (s : State), s.grants t.pred [.v t.src t.bs, .g t.a t.ba] [] [.g t.a t.ba] →
    (s.g t.a).val.getLsbD 63 = false →
    let va := ((s.g t.a).val + BitVec.ofInt 64 t.off).toNat
    (s.reaches va 256 → stores (.vst t) s [.raw va (leBytes 256 (s.v t.src).val.toNat) (s.v t.src).poison] .none false) ∧
      (s.misses va 256 → declines (.vst t) s va)

/-- R14 and R257 to R259: with a descriptor access word whose descriptor is well formed and free, VLDS reads and VST writes
the elements START + disp + m that lie inside the extents, lane by lane. A word with bits set that must be 0 is declined;
elements that are all out of range are declined too, and leave the descriptor with no census; a descriptor with an update
under way is waited for, and a malformed one is illegal. -/
def Obligations.DescriptorAccesses : Prop :=
  (∀ (t : LandF) (s : State), s.grants t.pred [.g t.a t.ba] [s.dv t.d] [.g t.a t.ba] →
    let a := (s.g t.a).val.toNat
    let d := s.cur.dAt (dawDn a)
    let ls := dawLanes d a t.disp
    let w := fmtWidth (dFmt d)
    let busy := s.cur.descBusy (dawDn a)
    let bad : Bool := dBad d s.cur.cbV || dFmt d = 9
    let at' (p : Nat × Nat) : Nat := elemAddr (dBase d) (dLin d p.2) w
    (dawOk a = false → lost (.vlds t) s t.land (s.dv t.d) true) ∧
    (dawOk a = true → busy = true → exec (.vlds t) s = .next (s.wait .desc)) ∧
    (dawOk a = true → busy = false → bad = true → exec (.vlds t) s = .next (s.trap 2 0 t.slot)) ∧
    (dawOk a = true → busy = false → bad = false → (∃ p ∈ ls, s.reaches (at' p) (max 1 (w / 8))) →
      loads (.vlds t) s t.land (s.dv t.d) .load (ls.map fun p => .read (at' p) (max 1 (w / 8)))
        (.lanes (dawLw a) (dFmt d) (ls.map (·.1)) (ls.map fun p => elemHi (dLin d p.2) w)) false none) ∧
    (dawOk a = true → busy = false → bad = false → (∀ p ∈ ls, s.misses (at' p) (max 1 (w / 8))) →
      lost (.vlds t) s t.land (s.dv t.d) (decide (ls ≠ [])))) ∧
  ∀ (t : StoreF) (s : State), s.grants t.pred [.v t.src t.bs, .g t.a t.ba] [] [.g t.a t.ba] →
    let a := (s.g t.a).val.toNat
    let dn := dawDn a
    let d := s.cur.dAt dn
    let shift := if dawCm a then censusShift d else dawDsh a
    let mode := if dawMode a = 3 then dRnd d else dawMode a
    let pieces := (dawLanes d a t.off).map fun p => Piece.elem (dBase d) (dLin d p.2)
      (lane (8 * 2 ^ dawLw a) (s.v t.src).val p.1) (fmtWidth (dFmt d)) (fmtUnsigned (dFmt d)) (dFmt d = 9) shift mode
      (s.v t.src).poison
    let held : Bool := dawCm a && s.cur.descBusy dn
    ∀ i ∈ [Instr.vstDescriptor t, .vst t], (i = .vst t → (s.g t.a).val.getLsbD 63 = true) →
    (dawOk a = false → declines i s a) ∧
    (dawOk a = true → held = true → exec i s = .next (s.wait .desc)) ∧
    (dawOk a = true → held = false → dBad d s.cur.cbV = true → exec i s = .next (s.trap 2 0 t.slot)) ∧
    (dawOk a = true → held = false → dBad d s.cur.cbV = false → (∃ p ∈ pieces, s.reaches p.va p.size) →
      stores i s pieces (.desc s.fc s.fx dn shift (dawEs a) d) false ∧
        answers i s fun u => u.cur.descPend = s.cur.descPend ++ [(dn, s.nextId)]) ∧
    (dawOk a = true → held = false → dBad d s.cur.cbV = false → (∀ p ∈ pieces, s.misses p.va p.size) →
      (∀ q ∈ s.cur.descPend, q.1 ≠ dn ∨ s.nextId ≤ q.2) →
      answers i s fun u => u.mem = s.mem ∧ u.poison = s.poison ∧ u.nextId = s.nextId + 1 ∧ u.cur.keeps s.cur [] ∧
        u.cur.decl = (s.cur.decl || decide (pieces ≠ [])) ∧ u.cur.dAt dn = (dUpdate d (dawEs a) shift none 0).1 ∧
        ∀ n, n ≠ dn → u.cur.dAt n = s.cur.dAt n)

/-- R14 and R260 to R262: an atomic or CAS sends one request with its operation, its size and its operands, as a release
when its order says so; one that is out of range is declined at once and lands poisoned, and a release whose context has a
declined store takes the access-declined trap; a fence whose condition holds and whose context has no declined store lets the context go on. -/
def Obligations.AtomicsAndFences : Prop :=
  (∀ (t : Tri) (s : State) (x : Nat), t.ext = some x →
    let rel (o : Order) : Bool := o = .rel || o = .ar
    let n := if x / 2 ^ 12 % 2 = 1 then 8 else 4
    let cmp := Src.g (x / 2 ^ 14 % 64) (x / 2 ^ 20 % 2 = 1)
    let va := (s.g t.a).val.toNat
    ∀ (sc : Scope) (o : Order),
    let does (i : Instr) (op : AtomOp) (c : Option Nat) : Prop :=
      ((rel o = true → s.old.decl = false) → s.reaches va n →
        loads i s (x % 2 ^ 12) (s.dg t.d) .atomic [.read va n] (.zext (8 * n)) (rel o)
          (some (op, n, x / 2 ^ 13 % 2 = 1, (s.g t.b).val.toNat, c))) ∧
      ((rel o = true → s.old.decl = false) → s.misses va n → lost i s (x % 2 ^ 12) (s.dg t.d) true) ∧
      (rel o = true → s.old.decl = true → exec i s = .next (s.trap 5 (BitVec.ofNat 64 s.old.declFirst) t.slot))
    (∀ op, s.grants t.pred [srcA t, srcB t] [s.dg t.d] [srcA t, srcB t] → does (.atom op sc o t) op none) ∧
    (s.grants t.pred [srcA t, srcB t, cmp] [s.dg t.d] [srcA t, srcB t, cmp] →
      does (.cas sc o t) .swap (some (s.g (x / 2 ^ 14 % 64)).val.toNat))) ∧
  ∀ (t : NoneF) (s : State) (sc : Scope) (o : Order), s.grants t.pred [] [] [] →
    let met : Bool := if o = .acq then s.allLanded else s.flushDone
    (met = true → s.old.decl = false → exec (.fence sc o t) s = .next s) ∧
      (met = true → s.old.decl = true → exec (.fence sc o t) s = .next (s.trap 5 (BitVec.ofNat 64 s.old.declFirst) t.slot)) ∧
      (met = false → exec (.fence sc o t) s = .next (s.wait .other))

/-- R53 and R263: TLOOK gives the first valid entry of its key, TSET installs one subject to the four statuses, TCLR and
TINV invalidate, each with its result at latency 2. R58, R59 and R264: SPILL moves a full register's value with its
poison to the lowest free location and writes 1, or 0 when there is none; UNSPILL brings it back at latency 4 and frees
the location. -/
def Obligations.TagsAndSpills : Prop :=
  (∀ (t : Tri) (s : State),
     let writes (i : Instr) (k : Core) (r : Nat) : Prop := answers i s fun u =>
       (s.onFc fun _ => k).queued u [s.due 2 (s.dg t.d) (BitVec.ofNat 2048 r) false 0]
     let tags := s.fcore.tags
     let valid (e : Word) : Bool := e.getLsbD 0
     let key (e : Word) : Nat := e.toNat / 2 ^ 14 % 2 ^ 42
     let a := (s.g t.a).val
     let b := (s.g t.b).val
     let i := a.toNat
     (s.grants t.pred [srcA t] [s.dg t.d] [srcA t] →
       (∀ j e, tags.find? (fun p => valid p.2 && key p.2 = key a) = some (j, e) → j < 2 ^ 16 →
         writes (.tlook t) s.fcore (e.toNat / 2 % 2 ^ 13 * 2 ^ 16 + j)) ∧
       (tags.find? (fun p => valid p.2 && key p.2 = key a) = none → writes (.tlook t) s.fcore (2 ^ 64 - 1)) ∧
       ((i < s.fcore.dslots ∨ 511 < i) → writes (.tclr t) s.fcore 0) ∧
       (s.fcore.dslots ≤ i → i ≤ 511 →
         writes (.tclr t) { s.fcore with tags := tags.set i (tags.get i 0 &&& ~~~1) } (tags.get i 0).toNat)) ∧
     (s.grants t.pred [srcA t, srcB t] [s.dg t.d] [srcA t, srcB t] →
       let old := tags.get i 0
       let set : Core := { s.fcore with tags := tags.set i (BitVec.ofNat 64 (b.toNat % 2 ^ 56 / 2 * 2 + 1)) }
       let taken : Bool := (tags.find? fun p => valid p.2 && key p.2 = key b).isSome
       ((i < s.fcore.dslots ∨ 511 < i) → writes (.tset t) s.fcore 3) ∧
       (s.fcore.dslots ≤ i → i ≤ 511 →
         (valid old = true → key old = key b → writes (.tset t) set 0) ∧
         (valid old = true → key old ≠ key b → writes (.tset t) s.fcore 1) ∧
         (valid old = false → taken = true → writes (.tset t) s.fcore 2) ∧
         (valid old = false → taken = false → writes (.tset t) set 0))) ∧
     (s.grants t.pred [] [s.dg t.d] [] →
       writes (.tinv t) { s.fcore with tags := tags.map fun p => (p.1, p.2 &&& ~~~1) } (tags.filter fun p => valid p.2).length)) ∧
  ((∀ (t : Tri) (s : State), s.grants t.pred [if t.b = 0 then .g t.a t.ba else .v t.a t.ba] [s.dp t.d] [] →
     let d := if t.b = 0 then s.dg t.a else s.dv t.a
     let val : Vec := if t.b = 0 then (s.g t.a).val.setWidth 2048 else (s.v t.a).val
     let poison := if t.b = 0 then (s.g t.a).poison else (s.v t.a).poison
     (∀ loc, s.fcore.spills.length < 64 → s.fcore.freeLoc = some loc →
       answers (.spill t) s fun u => u.cur.empties d ∧ u.cur.holds (s.dp t.d) 1 false ∧ s.elsewhere u ∧
         ((∀ e ∈ s.fcore.spills, ¬ (e.ctx = s.fx ∧ e.dest = s.dp t.d)) →
           u.fcore.spills = s.fcore.spills ++ [{ ctx := s.fx, dest := d, loc, val, poison }]) ∧
         u.cur.keeps s.cur [d, s.dp t.d]) ∧
     ((64 ≤ s.fcore.spills.length ∨ s.fcore.freeLoc = none) →
       answers (.spill t) s fun u => s.wrote u (s.dp t.d) 0 false 0)) ∧
   ∀ (t : Tri) (s : State) (e : Spill),
     let d := if t.b = 0 then s.dg t.d else s.dv t.d
     s.grants t.pred [] [d] [] → s.fcore.spills.find? (fun e => e.ctx = s.fx && e.dest = d) = some e →
     answers (.unspill t) s fun u => ∃ v, v.queued u [s.due 4 d e.val e.poison 0] ∧
       v = s.onFc fun k => { k with spills := k.spills.filter fun e => ¬ (e.ctx = s.fx ∧ e.dest = d) })

/-! ## The control map -/

/-- R265 to R268, R171 and R174: WAITT goes on once the counter has reached n and no unreported poisoned number lies at or
below it, READT reads a counter at latency 2, BARA counts an arrival for a generation, lands its token and sends its
release, GEN advances when every member has an arrival for it whose release is through, and once more when the next
generation is complete by then, BARW goes on once GEN is above the token, and BARM writes the mask of a barrier without
arrivals. A window selector whose entry has V = 0 is illegal; a barrier number of 256 or more, a BARA of a core that is no
member and a BARM while a member has arrived are barrier misuse (BARM whatever its read gives, log entry 64). -/
def Obligations.WaitsAndBarriers : Prop :=
  (∀ (t : ImmF) (s : State), s.grants t.pred [.g t.a t.ba] [] [.g t.a t.ba] →
    let sel := WF.selOf t
    let n := (s.g t.a).val.toNat
    let value := s.counter s.fc (selKind sel) (selIndex sel)
    (s.selBad sel = true → s.old.status ≠ .waiting .waitt → exec (.waitt t) s = .next (s.trap 2 0 t.slot)) ∧
    (s.selBad sel = false ∨ s.old.status = .waiting .waitt →
    (n ≤ value → s.old.decl = true → exec (.waitt t) s = .next (s.trap 5 (BitVec.ofNat 64 s.old.declFirst) t.slot)) ∧
    (n ≤ value → s.old.decl = false → s.badNums s.fc (selKind sel) (selIndex sel) n s.cur.reported s.cur.reportedWin = [] →
      exec (.waitt t) s = .next s) ∧
    (∀ b bs, n ≤ value → s.old.decl = false →
      s.badNums s.fc (selKind sel) (selIndex sel) n s.cur.reported s.cur.reportedWin = b :: bs →
      exec (.waitt t) s = .next ((s.report (selKind sel) (selIndex sel) (b :: bs)).trap 5
        (BitVec.ofNat 64 (2 ^ 63 + bs.foldl min b % 2 ^ 63)) t.slot)) ∧
    (value < n → exec (.waitt t) s = .next (s.wait .waitt)))) ∧
  (∀ (t : ImmF) (s : State), s.grants t.pred [] [s.dg t.d] [] →
    let sel := WF.selOf t
    (s.selBad sel = true → exec (.readt t) s = .next (s.trap 2 0 t.slot)) ∧
    (s.selBad sel = false → answers (.readt t) s fun u =>
      s.queued u [s.due 2 (s.dg t.d) (BitVec.ofNat 2048 (s.counter s.fc (selKind sel) (selIndex sel) % 2 ^ 64)) false 0])) ∧
  (∀ (t : LandF) (s : State), s.grants t.pred [.g t.a t.ba] [s.dg t.d] [.g t.a t.ba] →
    let b := (s.g t.a).val.toNat
    let bar := s.barrier b
    let mine := bar.arr.get s.fc 0
    let gen := (bar.gen + mine) % 2 ^ 64
    (256 ≤ b ∨ bar.mask.getLsbD s.fc = false → exec (.bara t) s = .next (s.trap 7 (BitVec.ofNat 64 b) t.slot)) ∧
    (b < 256 → bar.mask.getLsbD s.fc = true → 2 ≤ mine → exec (.bara t) s = .next (s.wait .other)) ∧
    (b < 256 → bar.mask.getLsbD s.fc = true → mine < 2 → answers (.bara t) s fun u =>
      u.cur.pend = s.cur.pend ++ [{ s.lands t.land (s.dg t.d) with token := true }] ∧
      (∃ y, u.replies = s.replies ++ [y] ∧ y.id = s.nextId ∧ y.core = s.fc ∧ y.x = s.fx ∧ y.val = BitVec.ofNat 2048 gen ∧
        y.poison = false) ∧
      u.cur.empties (s.dg t.d) ∧ u.cur.keeps s.cur [s.dg t.d] ∧
      u.barrier b = { bar with arr := bar.arr.set s.fc (mine + 1), flying := bar.flying ++ [(s.fc, gen)] } ∧
      (∀ c, c ≠ b → u.barrier c = s.barrier c) ∧
      ∃ r ∈ u.net, r.id = s.nextId + 1 ∧ r.agent = .ctx s.fc s.fx ∧ r.rel = true ∧ r.stage = .flush ∧ r.pieces = [] ∧
        r.ret = .bar s.fc b gen)) ∧
  (∀ (s : State) (core b gen : Nat),
    let bar := s.barrier b
    let flying := bar.flying.erase (core, gen)
    let u := s.barArrive core b gen
    let through (n : Nat) : Prop := bar.mask ≠ 0 ∧ ∀ c < 640, bar.mask.getLsbD c = true →
      n < bar.arr.get c 0 ∧ (c, (bar.gen + n) % 2 ^ 64) ∉ flying
    let advances (n : Nat) : Prop := (u.barrier b).mask = bar.mask ∧ (u.barrier b).flying = flying ∧
      (u.barrier b).gen = (bar.gen + n) % 2 ^ 64 ∧ ∀ c, (u.barrier b).arr.get c 0 = bar.arr.get c 0 - n
    bar.gen < 2 ^ 64 →
    (¬ through 0 → u.barrier b = { bar with flying }) ∧
    (through 0 → ¬ through 1 → advances 1) ∧ (through 0 → through 1 → advances 2) ∧
    ∀ c, c ≠ b → u.barrier c = s.barrier c) ∧
  (∀ (t : Tri) (s : State), s.grants t.pred [srcA t, srcB t] [] [srcA t, srcB t] →
    let b := (s.valA t).toNat
    let bar := s.barrier b
    (256 ≤ b → exec (.barw t) s = .next (s.trap 7 (BitVec.ofNat 64 b) t.slot)) ∧
      (b < 256 → (s.g t.b).val.toNat < bar.gen → exec (.barw t) s = .next s) ∧
      (b < 256 → bar.gen ≤ (s.g t.b).val.toNat → exec (.barw t) s = .next (s.wait .barw))) ∧
  ∀ (t : Tri) (s : State) (bs : List (Byte × Bool)), s.grants t.pred [srcA t, srcB t] [] [srcA t, srcB t] →
    let b := (s.valA t).toNat
    (256 ≤ b → exec (.barm t) s = .next (s.trap 7 (BitVec.ofNat 64 b) t.slot)) ∧
    (b < 256 → s.quiet = false → exec (.barm t) s = .next (s.wait .other)) ∧
    (b < 256 → s.quiet = true →
    s.readNow { agent := s.focus, kind := .load, asid := s.old.asid, need := none } (s.g t.b).val.toNat 80 = .ready bs →
    ((∃ p ∈ (s.barrier b).arr, 0 < p.2) → exec (.barm t) s = .next (s.trap 7 (BitVec.ofNat 64 b) t.slot)) ∧
    ((∀ p ∈ (s.barrier b).arr, p.2 = 0) → (∃ x ∈ bs, x.2 = true) →
      exec (.barm t) s = .next (s.trap 5 (BitVec.ofNat 64 s.cur.declFirst) t.slot)) ∧
    ((∀ p ∈ (s.barrier b).arr, p.2 = 0) → (∀ x ∈ bs, x.2 = false) → exec (.barm t) s = .next
      { s with barriers := s.barriers.set b { s.barrier b with mask := BitVec.ofNat 640 (leNat (bs.map (·.1))) } }))

/-- R269, R270, R350: CROPEN adds a region with its handler, CRCLOSE drops the innermost one once its stores are done,
TRACK closes the critical window, TRAP takes cause 9 with its code, and TRET goes back to the bundle at TRPC. -/
def Obligations.RegionsAndTraps : Prop :=
  (∀ (t : ImmF) (s : State), s.grants t.pred [] [] [] →
    (s.old.regions.length < 4 → exec (.cropen t) s = .next (s.onCur fun k => { k with regions := k.regions ++
      [{ handler := headerAt s.old.pc t.imm, id := t.d, hdepth := k.trap.hdepth, since := s.nextId }] })) ∧
    (4 ≤ s.old.regions.length → exec (.cropen t) s = .next (s.trap 2 0 t.slot)) ∧
    exec (.trap t) s = .next (s.trap 9 (BitVec.ofInt 64 t.imm) t.slot)) ∧
  ∀ (t : NoneF) (s : State), s.grants t.pred [] [] [] →
    (∀ r, s.old.regions.getLast? = some r → s.storesDone r.since = true →
      exec (.crclose t) s = .next (s.onCur fun k => { k with regions := k.regions.dropLast })) ∧
    (∀ r, s.old.regions.getLast? = some r → s.storesDone r.since = false → exec (.crclose t) s = .next (s.wait .other)) ∧
    (s.old.regions = [] → exec (.crclose t) s = .next (s.trap 2 0 t.slot)) ∧
    exec (.track t) s = .next (s.onCur fun k => { k with trap := { k.trap with crit := false } }) ∧
    (0 < s.old.trap.hdepth → s.old.target = none →
      answers (.tret t) s fun u => s.elsewhere u ∧ u.cur.keeps s.cur [] ∧
        let k := s.cur
        let r := u.cur
        r.redirect = some .ret ∧ r.pc = k.trap.pc ∧ r.trap = { k.trap with hdepth := k.trap.hdepth - 1, crit := false } ∧
          r.loop = (if k.trap.hdepth = 1 ∨ k.trap.hdepth = 0 then k.trap.loopSave else k.loop) ∧
          (k.trap.shadow = true → r.issue = 0 ∧ r.target = some (k.trap.target * 4)) ∧
          (k.trap.shadow = false → r.issue = k.trap.issue ∧ r.target = none)) ∧
    (s.old.trap.hdepth = 0 ∨ s.old.target ≠ none → exec (.tret t) s = .next (s.trap 2 0 t.slot))

/-- R9, R212, R271: CSRR reads a listed control register at latency 1; CSRW, CSRS and CSRC write, set and clear its RW
bits, those of SAT, SPERR and DECLFLAG clear what is written 1, a reserved bit keeps 0 and a CPAT value with a bad step is
illegal; no other control register changes. A write of CBTBASE with V = 1 latches 512 bytes (R110; a table in a scratchpad
or the ring, which have no class, is log entry 65). An operation on a selector that R212 does not list, and a write of a
register whose every field is RO, is an illegal instruction. -/
def Obligations.ControlRegisters : Prop :=
  (∀ (t : ImmF) (s : State), s.grants t.pred [] [s.dg t.d] [] → WF.csrKnown (t.imm % 128).toNat = true →
    answers (.csrr t) s fun u => s.wrote u (s.dg t.d) (BitVec.ofNat 2048 (s.csr s.old (t.imm % 128).toNat)) false 0) ∧
  (∀ (t : ImmF) (s : State), s.grants t.pred [.g t.a t.ba] [] [.g t.a t.ba] → s.old = s.cur →
    let sel := (t.imm % 128).toNat
    let a := (s.g t.a).val.toNat
    let old := s.csr s.cur sel
    let becomes (i : Instr) (v : Nat) : Prop := answers i s fun u => u.csr u.cur sel = v ∧ s.elsewhere u ∧
      u.cur.keeps s.cur [] ∧ ∀ r < 128, r ≠ sel → u.csr u.cur r = s.csr s.cur r
    (sel ∈ [0x03, 0x10, 0x11, 0x19, 0x1B] → becomes (.csrw t) a ∧ becomes (.csrs t) (old ||| a) ∧
      becomes (.csrc t) (old - (old &&& a))) ∧
    (sel ∈ [0x12, 0x23, 0x25] → becomes (.csrw t) (a % 2 ^ 32) ∧ becomes (.csrs t) (old ||| a % 2 ^ 32) ∧
      becomes (.csrc t) (old - (old &&& a))) ∧
    (sel ∈ [0x20, 0x21, 0x22] → becomes (.csrw t) (a % 2 ^ 8) ∧ becomes (.csrs t) (old ||| a % 2 ^ 8) ∧
      becomes (.csrc t) (old - (old &&& a))) ∧
    let clears (i : Instr) : Prop := becomes i (old - (old &&& a))
    (sel = 0x00 → becomes (.csrw t) (a &&& (2 ^ 56 - 4 + 1)) ∧
      (old < 2 ^ 56 → becomes (.csrs t) (old ||| (a &&& (2 ^ 56 - 4 + 1))) ∧ clears (.csrc t))) ∧
    (sel = 0x01 → becomes (.csrw t) (a &&& (2 ^ 56 - 4)) ∧ becomes (.csrs t) (old ||| (a &&& (2 ^ 56 - 4))) ∧
      clears (.csrc t)) ∧
    (sel = 0x02 → becomes (.csrw t) (a % 64) ∧ (old < 64 → becomes (.csrs t) (old ||| a % 64) ∧ clears (.csrc t))) ∧
    (sel = 0x04 → becomes (.csrw t) a ∧ (old < 2 ^ 64 → becomes (.csrs t) (old ||| a) ∧ clears (.csrc t))) ∧
    (sel = 0x26 → becomes (.csrw t) (a % 2) ∧ becomes (.csrs t) (old ||| a % 2) ∧ clears (.csrc t)) ∧
    (sel = 0x39 → WF.cpatOk (a / 2 ^ 32 % 16 + 1) (a % 2 ^ 32) = true → becomes (.csrw t) (a % 2 ^ 36)) ∧
    (sel = 0x39 → WF.cpatOk (a / 2 ^ 32 % 16 + 1) (a % 2 ^ 32) = false → exec (.csrw t) s = .next (s.trap 2 0 t.slot)) ∧
    (sel = 0x39 → old < 2 ^ 36 → ∀ p ∈ [(Instr.csrs t, old ||| a % 2 ^ 36), (Instr.csrc t, old - (old &&& a))],
      (WF.cpatOk (p.2 / 2 ^ 32 + 1) (p.2 % 2 ^ 32) = true → becomes p.1 p.2) ∧
      (WF.cpatOk (p.2 / 2 ^ 32 + 1) (p.2 % 2 ^ 32) = false → exec p.1 s = .next (s.trap 2 0 t.slot))) ∧
    (sel = 0x40 → becomes (.csrw t) (a &&& 0x071F1F) ∧ (s.cur.gb < 32 → s.cur.vb < 32 → s.cur.pb < 8 →
      becomes (.csrs t) (old ||| (a &&& 0x071F1F)) ∧ clears (.csrc t))) ∧
    (let least (v : Nat) : Nat := if v = 0 then 1 else v
     sel = 0x24 → becomes (.csrw t) (least (a % 2 ^ 32)) ∧ becomes (.csrs t) (least (old ||| a % 2 ^ 32)) ∧
       becomes (.csrc t) (least (old - (old &&& a)))) ∧
    (sel ∈ [0x18, 0x1A] → (a % 2 = 1 → becomes (.csrw t) 0 ∧ becomes (.csrc t) 0) ∧
      (a % 2 = 0 → becomes (.csrw t) old ∧ becomes (.csrc t) old) ∧ becomes (.csrs t) old) ∧
    (sel = 0x08 → becomes (.csrs t) old ∧
      (s.cur.decl = true → a % 2 = 1 → becomes (.csrw t) 0 ∧ becomes (.csrc t) 0) ∧
      (s.cur.decl = false ∨ a % 2 = 0 → becomes (.csrw t) old ∧ becomes (.csrc t) old))) ∧
  (∀ (w : Nat) (s : State), w < 2 ^ 32 →
    let listed (n : Nat) : Prop := n ≤ 0x08 ∨ 0x10 ≤ n ∧ n ≤ 0x12 ∨ 0x18 ≤ n ∧ n ≤ 0x1B ∨ 0x20 ≤ n ∧ n ≤ 0x26 ∨
      n ∈ [0x28, 0x29, 0x30, 0x31, 0x32, 0x38, 0x39, 0x40, 0x41, 0x42, 0x48, 0x49]
    let op := w / 2 ^ 24
    op ∈ [0x0B, 0x0C, 0x0D, 0x0E] →
    ¬ listed (w % 2 ^ 7) ∨ op ≠ 0x0B ∧ w % 2 ^ 7 ∈ [0x05, 0x06, 0x07, 0x28, 0x30, 0x31, 0x32, 0x41, 0x42, 0x48, 0x49] →
    runOp exec s (7, (decodeSlot 7 w none).toOption) = s.trap 2 0 7) ∧
  (∀ (t : ImmF) (s : State), s.grants t.pred [.g t.a t.ba] [] [.g t.a t.ba] → t.imm % 128 = 0x29 →
    (s.g t.a).val.getLsbD 0 = false →
    answers (.cbtbaseWrite t) s fun u => u.cur.cbV = false ∧ u.cur.cbAddr = (s.g t.a).val.toNat % 2 ^ 56 / 512 ∧
      s.elsewhere u ∧ u.cur.keeps s.cur []) ∧
  ∀ (t : ImmF) (s : State) (bs : List (Byte × Bool)), s.grants t.pred [.g t.a t.ba] [] [.g t.a t.ba] → t.imm % 128 = 0x29 →
    (s.g t.a).val.getLsbD 0 = true → s.quiet = true →
    let base := (s.g t.a).val.toNat % 2 ^ 56 / 512
    s.readNow { agent := s.focus, kind := .load, asid := s.old.asid, need := some 5 } (base * 512) 512 = .ready bs →
    answers (.cbtbaseWrite t) s fun v => v.cur.cbV = true ∧ v.cur.cbAddr = base ∧ s.elsewhere v ∧ v.cur.keeps s.cur [] ∧
      ∀ j < 256, v.cur.cbTable[j]? = some (leNat (((bs.drop (2 * j)).take 2).map (·.1)), ((bs.drop (2 * j)).take 2).any (·.2))

/-- R272, R323, R336: EVPOST, STAGE and a CSRW of STAGE above its count send a release that carries their effect, with
the declined-store flag not set; the context goes on. A full event queue makes EVPOST wait, and a declined store is
trapped on. -/
def Obligations.ReleasedEffects : Prop :=
  let sent (i : Instr) (s : State) (ret : Ret) : Prop := answers i s fun u => u.nextId = s.nextId + 1 ∧ u.mem = s.mem ∧
    u.cur.keeps s.cur [] ∧ ∃ r ∈ u.net, r.id = s.nextId ∧ r.agent = .ctx s.fc s.fx ∧ r.stage = .flush ∧ r.pieces = [] ∧ r.ret = ret
  (∀ (t : Tri) (s : State) (k : Task), s.grants t.pred [srcA t, srcB t] [] [srcA t, srcB t] → s.old.decl = false →
    s.evLoad (dieOf s.fc) < 4096 → s.cur.task = some k →
    sent (.evpost t) s (.post (dieOf s.fc)
      [BitVec.ofNat 64 ((s.g t.a).val.toNat % 2 ^ 16 + s.fc * 2 ^ 16 + s.fx * 2 ^ 26), (s.g t.b).val, k.nodeId, BitVec.ofNat 64 k.queue])) ∧
  (∀ (t : Tri) (s : State), s.grants t.pred [srcA t, srcB t] [] [srcA t, srcB t] →
    (4096 ≤ s.evLoad (dieOf s.fc) → exec (.evpost t) s = .next (s.wait .other)) ∧
    (s.evLoad (dieOf s.fc) < 4096 → s.old.decl = true →
      exec (.evpost t) s = .next (s.trap 5 (BitVec.ofNat 64 s.old.declFirst) t.slot))) ∧
  (∀ (t : ImmF) (s : State), s.grants t.pred [] [] [] →
    (s.old.decl = false → sent (.stage t) s (.stage s.fc t.imm.toNat)) ∧
    (s.old.decl = true → exec (.stage t) s = .next (s.trap 5 (BitVec.ofNat 64 s.old.declFirst) t.slot))) ∧
  ∀ (t : ImmF) (s : State), s.grants t.pred [.g t.a t.ba] [] [.g t.a t.ba] →
    let v := (s.g t.a).val.toNat
    (s.fcore.stage < v → s.old.decl = false → sent (.stageCsrWrite t) s (.stage s.fc (v - s.fcore.stage))) ∧
      (v ≤ s.fcore.stage → exec (.stageCsrWrite t) s = .next s)

/-- R273, R274, R275, R277: YIELD waits for its count; END waits for the writes and the flush of the bundles before it,
traps on a declined store, and frees the context with a task-end record once those of its own bundle are done too; ICINV
waits for the flush unless its length is 0 and then drops nothing, since the model keeps no instruction cache (its own
reading, log entry 13); LSUPD updates the loss scale, clears SAT and writes whether to skip. -/
def Obligations.YieldEndAndScale : Prop :=
  (∀ (t : ImmF) (s : State), s.grants t.pred [] [] [] → 1 ≤ t.imm →
    exec (.yield t) s = .next (s.onCur fun k => { k with status := .waiting (.yielding (s.fcore.cycle + t.imm.toNat + 1)) })) ∧
  (∀ (t : NoneF) (s : State), s.grants t.pred [] [] [] →
    (s.old.pend ≠ [] ∨ s.flushDone = false → exec (.endTask t) s = .next (s.wait .other)) ∧
    (s.old.pend = [] → s.flushDone = true → s.old.decl = true →
      exec (.endTask t) s = .next (s.trap 5 (BitVec.ofNat 64 s.old.declFirst) t.slot)) ∧
    (s.old.pend = [] → s.flushDone = true → s.old.decl = false →
      let own : State := { s with before := none }
      (s.cur.pend = [] → own.flushDone = true →
        answers (.endTask t) s fun u => u.cur.task = none ∧ u.cur.status = .idle ∧
          ∀ k, s.cur.task = some k →
            (u.die (dieOf s.fc)).evWait.getLast? = some { kind := 1, words := k.endWords s.fc false }) ∧
      (s.cur.pend ≠ [] ∨ own.flushDone = false → exec (.endTask t) s = .next (s.onCur fun k =>
        { k with loop := k.loop.abandoned, regions := [], status := .waiting .ending })))) ∧
  (∀ (t : Tri) (s : State), s.grants t.pred [srcA t, srcB t] [] [srcA t, srcB t] →
    ((s.g t.b).val = 0 ∨ s.flushDone = true → exec (.icinv t) s = .next s) ∧
      ((s.g t.b).val ≠ 0 → s.flushDone = false → exec (.icinv t) s = .next (s.wait .other))) ∧
  ∀ (t : Tri) (s : State), s.grants t.pred [srcA t] [s.dp t.d] [srcA t] → s.old = s.cur →
    let ov : Bool := (s.g t.a).val != 0 || s.cur.sat
    let l := s.cur.ls
    let updates (skip : Bool) (new : LossRegs) : Prop := answers (.lsupd t) s fun u =>
      u.cur.ls = new ∧ u.cur.sat = false ∧ u.cur.holds (s.dp t.d) (bitVec skip) false ∧ s.elsewhere u ∧ u.cur.keeps s.cur [s.dp t.d]
    let floors := BitVec.ofNat 32 (min (l.floor.toNat + 1) (2 ^ 32 - 1))
    (ov = true → l.min.toInt < l.e.toInt → updates true { l with cnt := 0, e := l.e - 1 }) ∧
      (ov = true → l.e.toInt ≤ l.min.toInt → l.fte = false → updates true { l with cnt := 0, floor := floors }) ∧
      (ov = true → l.e.toInt ≤ l.min.toInt → l.fte = true →
        exec (.lsupd t) s = .next ((s.onCur fun k => { k with ls := { l with floor := floors } }).trap 8 (l.e.signExtend 64) t.slot)) ∧
      (ov = false → l.e.toInt < l.max.toInt → l.int.toNat ≤ (l.cnt + 1).toNat → updates false { l with cnt := 0, e := l.e + 1 }) ∧
      (ov = false → l.e.toInt < l.max.toInt → (l.cnt + 1).toNat < l.int.toNat → updates false { l with cnt := l.cnt + 1 }) ∧
      (ov = false → l.max.toInt ≤ l.e.toInt → updates false { l with cnt := l.int })

/-! ## Traps, regions and halts -/

/-- R349, R351: a trap with a handler installed, outside the critical window and below the greatest depth, saves the
bundle's address, cause, TRADDR, slot, issue and shadow target, opens the critical window and goes to the handler, whose
first bundle issues 4 cycles later or more; the outermost one saves the loop, a nested one abandons it. One in the
critical window or at the greatest depth halts the context with the second trap in TRPC2 and TRCAUSE2, one without a
handler halts it with the first one's registers, and either posts a kind 5 record. No register, rotation base,
predicate, tile or byte of memory is changed. The consumption of bad data inside a region unwinds instead, but for one in
the critical window, which is a double trap (R354). -/
def Obligations.TrapEntry : Prop :=
  ∀ (s : State) (c x cause : Nat) (addr : Word) (slot : Nat),
    let k := s.ctx c x
    let u := s.trapCtx c x cause addr slot
    let r := u.ctx c x
    let posted (w : Nat) : Prop := (u.die (c / 20)).evWait = (s.die (c / 20)).evWait ++
      [{ kind := 5, words := [BitVec.ofNat 64 (c % 20 + x * 32), BitVec.ofNat 64 w, 0, 0] }]
    let stays : Prop := r.keeps k [] ∧ r.gb = k.gb ∧ r.vb = k.vb ∧ r.pb = k.pb ∧ r.pend = k.pend ∧ r.regions = k.regions ∧
      (u.core c).acc = (s.core c).acc ∧ u.mem = s.mem
    let unwinds : Prop := cause ∈ [4, 5, 10] ∧ k.regions ≠ []
    (k.trap.crit = false → ¬ unwinds → k.trap.hdepth < 15 → k.trap.vecEn = true →
      r.pc = k.trap.vecAddr * 4 ∧ r.issue = 0 ∧ r.status = .ready ∧ r.startAt = (s.core c).cycle + 4 ∧ r.target = none ∧
        r.trap.pc = k.pc ∧ r.trap.code = cause ∧ r.trap.unw = false ∧ r.trap.addr = addr ∧ r.trap.slot = slot ∧
        r.trap.issue = k.issue ∧ r.trap.shadow = k.target.isSome ∧ r.trap.target = k.target.getD 0 / 4 ∧
        r.trap.crit = true ∧ r.trap.hdepth = k.trap.hdepth + 1 ∧
        r.trap.loopSave = (if k.trap.hdepth = 0 then k.loop else k.trap.loopSave) ∧
        r.loop = (if k.trap.hdepth = 0 then { k.loop with act := false } else k.loop.abandoned) ∧ r.sticky = [] ∧ stays ∧
        r.trap.vecEn = true ∧ r.trap.vecAddr = k.trap.vecAddr ∧ r.trap.pc2 = k.trap.pc2 ∧ r.trap.code2 = k.trap.code2 ∧
        { u with cores := s.cores } = s) ∧
    (k.trap.crit = true ∨ k.trap.hdepth = 15 ∧ ¬ unwinds →
      r.status = .halted ∧ r.trap = { k.trap with pc2 := k.pc, code2 := cause } ∧
        posted (k.trap.code + cause * 256 + 65536) ∧ stays) ∧
    (k.trap.crit = false → ¬ unwinds → k.trap.hdepth < 15 → k.trap.vecEn = false →
      r.status = .halted ∧ r.trap.pc = k.pc ∧ r.trap.code = cause ∧ r.trap.addr = addr ∧ r.trap.slot = slot ∧
        r.trap.pc2 = 0 ∧ r.trap.code2 = 0 ∧ posted cause ∧ stays)

/-- R354 and R355: a consumed poison, a declined store or a fetch trap inside a region waits for the context to settle,
and the unwind then goes to the innermost region's handler with its depth, closes that region and clears the
declined-store flag. -/
def Obligations.UnwindsToHandler : Prop :=
  (∀ (s : State) (c x cause : Nat) (addr : Word) (slot : Nat),
    let k := s.ctx c x
    k.trap.crit = false → cause ∈ [4, 5, 10] → k.regions ≠ [] →
    (s.trapCtx c x cause addr slot).ctx c x = { k with status := .waiting (.unwinding cause addr slot k.issue) }) ∧
  ∀ (s : State) (c x cause : Nat) (addr : Word) (slot issue : Nat) (r : Region),
    let k := s.ctx c x
    k.status = .waiting (.unwinding cause addr slot issue) → k.regions.getLast? = some r → s.settled c x r.since = true →
    let u := (s.settle c x).ctx c x
    u.pc = r.handler ∧ u.status = .ready ∧ u.issue = 0 ∧ u.regions = k.regions.dropLast ∧ u.decl = false ∧
      u.trap.hdepth = r.hdepth ∧ u.trap.crit = false ∧ u.trap.unw = true ∧ u.trap.pc = k.pc ∧ u.trap.code = cause ∧
      u.trap.addr = addr ∧ u.trap.slot = slot ∧ u.loop.act = false ∧ u.keeps k [] ∧ u.startAt = (s.core c).cycle + 1

/-! ## The vector map -/

/-- R282: the lane arithmetic and logic of the table at latency 2, the products at latency 4; only VADDS, VSUBS, VMULSH,
VMAC, VABS and VNEG saturate. -/
def Obligations.VectorArithmetic : Prop :=
  ∀ (w : Width) (t : Tri) (s : State),
    let W := wBits w
    let a (m : Nat) : Int := lane W (s.v t.a).val m
    let b (m : Nat) : Int := lane W (s.v t.b).val m
    let d (m : Nat) : Int := lane W (s.v t.d).val m
    let ab := [Src.v t.a t.ba, Src.v t.b t.bb]
    let gives (i : Instr) (L : Nat) (f : Nat → Int) : Prop := vecYields i s t L W ab false { val := f }
    gives (.vadd w t) 2 (fun m => a m + b m) ∧ gives (.vsub w t) 2 (fun m => a m - b m) ∧
      vecYields (.vadds w t) s t 2 W ab false (clamped W fun m => a m + b m) ∧
      vecYields (.vsubs w t) s t 2 W ab false (clamped W fun m => a m - b m) ∧
      gives (.vmul w t) 4 (fun m => a m * b m) ∧ gives (.vmulh w t) 4 (fun m => a m * b m / 2 ^ W) ∧
      (∀ q : Nat → Int, (∀ m, let e := 2 * (a m * (s.g t.b).val.toInt - q m * 2 ^ 16)
          e ≤ 2 ^ 16 ∧ -2 ^ 16 ≤ e ∧ (e = 2 ^ 16 ∨ e = -2 ^ 16 → q m % 2 = 0)) →
        vecYields (.vmulsh w t) s t 4 W [.v t.a t.ba, .g t.b t.bb] false (clamped W q)) ∧
      vecYields (.vmac w t) s t 4 W ab true (clamped W fun m => d m + a m * b m) ∧
      gives (.vmin w t) 2 (fun m => min (a m) (b m)) ∧ gives (.vmax w t) 2 (fun m => max (a m) (b m)) ∧
      vecYields (.vabs w t) s t 2 W [.v t.a t.ba] false (clamped W fun m => (a m).natAbs) ∧
      vecYields (.vneg w t) s t 2 W [.v t.a t.ba] false (clamped W fun m => -a m) ∧
      gives (.vand w t) 2 (fun m => (laneBits W (s.v t.a).val m &&& laneBits W (s.v t.b).val m : Nat)) ∧
      gives (.vor w t) 2 (fun m => (laneBits W (s.v t.a).val m ||| laneBits W (s.v t.b).val m : Nat)) ∧
      gives (.vxor w t) 2 (fun m => (laneBits W (s.v t.a).val m ^^^ laneBits W (s.v t.b).val m : Nat)) ∧
      vecYields (.vnot w t) s t 2 W [.v t.a t.ba] false { val := fun m => -a m - 1 }

/-- R283 to R286: lane shifts by the amount of Vb, where an amount of the lane width or more gives 0, rounding shifts,
VSHRS with one random word a lane, saturation to t bits, widening and packing. -/
def Obligations.VectorShiftsAndWidths : Prop :=
  ∀ (w : Width) (t : Tri) (s : State),
    let W := wBits w
    let a (m : Nat) : Int := lane W (s.v t.a).val m
    let b (m : Nat) : Nat := laneBits W (s.v t.b).val m
    let ab := [Src.v t.a t.ba, Src.v t.b t.bb]
    let gives (i : Instr) (f : Nat → Int) : Prop := vecYields i s t 2 W ab false { val := f }
    gives (.vshl w t) (fun m => if W ≤ b m then 0 else a m * 2 ^ b m) ∧
      gives (.vshr w t) (fun m => if W ≤ b m then 0 else (laneBits W (s.v t.a).val m / 2 ^ b m : Nat)) ∧
      gives (.vsar w t) (fun m => a m / 2 ^ min (b m) (W - 1)) ∧
      (∀ q : Nat → Int, (∀ m, let n := min (b m) 64
          let e := 2 * (a m - q m * 2 ^ n)
          e ≤ 2 ^ n ∧ -2 ^ n ≤ e ∧ (e = 2 ^ n ∨ e = -2 ^ n → q m % 2 = 0)) → gives (.vshrn w t) q) ∧
      (let mask := s.maskOf t
       let all := vecSrcs mask W ab false t.d
       s.grants t.pred all [s.dv t.d] [] → ∀ r : Vec,
       (∀ m < 2048 / W, lane W r m = if laneOn mask W m then
          (let n := min (b m) 64
           let x := (mix s.old.rngkey (s.cur.rngctr + BitVec.ofNat 64 m) s.old.rngstep).toNat
           sx ((a m + (x % 2 ^ n : Nat)) / 2 ^ n) W) else lane W (s.v t.d).val m) →
       answers (.vshrs w t) s fun u => ∃ v, s.queued v [s.due 2 (s.dv t.d) r (s.anyPoison all) 0] ∧
         u = v.onCur fun k => { k with rngctr := s.cur.rngctr + BitVec.ofNat 64 (2048 / W) }) ∧
      (let n := t.b + 1
       let y (m : Nat) : Int := if t.bb then min (max (a m) 0) (2 ^ n - 1) else min (max (a m) (-2 ^ (n - 1))) (2 ^ (n - 1) - 1)
       vecYields (.vsat w t) s t 2 W [.v t.a t.ba] false { val := y, hit := fun m => y m != a m }) ∧
      vecYields (.vwid w t) s t 3 (2 * W) [.v t.a t.ba] false
        { val := fun m => let l := t.b * (1024 / W) + m
                          if t.bb then (laneBits W (s.v t.a).val l : Nat) else a l } ∧
      vecYields (.vpack w t) s t 3 W ab false (clamped W fun m =>
        if m < 1024 / W then lane (2 * W) (s.v t.a).val m else lane (2 * W) (s.v t.b).val (m - 1024 / W))

/-- R287 to R290 and R297: compares into K, selection, broadcast, permutes, rotation, insertion, extraction, lane counts
and mask logic. -/
def Obligations.VectorLanesMove : Prop :=
  ∀ (w : Width) (t : Tri) (s : State),
    let W := wBits w
    let L := 2048 / W
    let mask := s.maskOf t
    let a (m : Nat) : Int := lane W (s.v t.a).val m
    let b (m : Nat) : Int := lane W (s.v t.b).val m
    let av := [Src.v t.a t.ba]
    let ab := [Src.v t.a t.ba, Src.v t.b t.bb]
    let x := (s.g t.b).val.toNat % L
    (s.grants t.pred ab [.k t.d] ab → ∀ (cc : Cond) (r : BitVec 256),
      (∀ j < 256, r.getLsbD j = if laneOn mask W (j / (W / 8)) then
        (let p := a (j / (W / 8))
         let q := b (j / (W / 8))
         match cc with
         | .eq => p == q
         | .ne => p != q
         | .lt => decide (p < q)
         | .ge => decide (q ≤ p)
         | .ltn => decide (laneBits W (s.v t.a).val (j / (W / 8)) < laneBits W (s.v t.b).val (j / (W / 8)))
         | .gen => decide (laneBits W (s.v t.b).val (j / (W / 8)) ≤ laneBits W (s.v t.a).val (j / (W / 8))))
        else (s.k t.d).getLsbD j) → yields (.vcmp cc w t) s 2 (.k t.d) (r.setWidth 2048) false 0) ∧
      vecWhole (.vsel w t) s t 2 W ab (fun m => if laneOn mask W m then a m else b m) 0 ∧
      vecYields (.vbcast w t) s t 2 W [.g t.a t.ba] false { val := fun _ => (s.g t.a).val.toInt } ∧
      vecYields (.vperm w t) s t 3 W ab false { val := fun m => a (laneBits W (s.v t.b).val m % L) } ∧
      vecYields (.vshuf w t) s t 3 W av false { val := fun m => a (match t.b with
        | 0 => if m < L / 2 then 2 * m else 2 * (m - L / 2) + 1
        | 1 => if m % 2 = 0 then m / 2 else (m - 1) / 2 + L / 2
        | 2 => L - 1 - m
        | _ => m ^^^ 1) } ∧
      vecYields (.vrot w t) s t 3 W [.v t.a t.ba, .g t.b t.bb] false { val := fun m => a ((m + x) % L) } ∧
      (s.grants t.pred [.v t.a t.ba, .g t.b t.bb] [s.dg t.d] [] →
        scalarYields (.vmovg w t) s 2 t.d [.v t.a t.ba, .g t.b t.bb] (a x) 0) ∧
      vecWhole (.vins w t) s t 2 W [.g t.a t.ba, .g t.b t.bb, .v t.d true]
        (fun m => if m = x then (s.g t.a).val.toInt else lane W (s.v t.d).val m) 0 ∧
      (∀ c : Nat → Nat, (∀ m, let v := laneBits W (s.v t.a).val m
          if v = 0 then c m = W else c m < W ∧ 2 ^ (W - 1 - c m) ≤ v ∧ v < 2 ^ (W - c m)) →
        vecYields (.vclz w t) s t 2 W av false { val := fun m => c m }) ∧
      vecYields (.viota w t) s t 2 W [] false { val := fun m => ((List.range m).filter fun j => laneOn mask W j).length } ∧
      (s.grants t.pred [] [.k t.d] [] →
        yields (.kand t) s 1 (.k t.d) ((s.k t.a &&& s.k t.b).setWidth 2048) false 0 ∧
          yields (.kor t) s 1 (.k t.d) ((s.k t.a ||| s.k t.b).setWidth 2048) false 0 ∧
          yields (.knot t) s 1 (.k t.d) ((~~~(s.k t.a)).setWidth 2048) false 0)

/-- R106, R98, R291 to R296: reductions of the active lanes into every i64 lane, their census, the exponential, table
lookup, Hadamard blocks and VQ2 decoding. -/
def Obligations.VectorReductionsAndTables : Prop :=
  ∀ (w : Width) (t : Tri) (s : State),
    let W := wBits w
    let mask := s.maskOf t
    let a (m : Nat) : Int := lane W (s.v t.a).val m
    let av := [Src.v t.a t.ba]
    let xs := ((List.range (2048 / W)).filter fun m => laneOn mask W m).map a
    let red (i : Instr) (r : Int) : Prop := vecWhole i s t 5 64 av (fun _ => min (max r (-2 ^ 63)) (2 ^ 63 - 1))
      (if -2 ^ 63 ≤ r ∧ r < 2 ^ 63 then 0 else 1)
    red (.vredadd w t) xs.sum ∧ red (.vredmax w t) (xs.foldl max (-2 ^ 63)) ∧ red (.vredmin w t) (xs.foldl min (2 ^ 63 - 1)) ∧
      (∀ c : Nat, (xs = [] → c = W) → (xs ≠ [] → c ≤ W - 1 ∧ (∀ x ∈ xs, -2 ^ (W - 1 - c) ≤ x ∧ x < 2 ^ (W - 1 - c)) ∧
          (c < W - 1 → ∃ x ∈ xs, x < -2 ^ (W - 2 - c) ∨ 2 ^ (W - 2 - c) ≤ x)) →
        vecWhole (.vcensus w t) s t 4 64 av (fun _ => c) 0) ∧
      vecYields (.vexp2 w t) s t 6 32 av false
        { val := fun m => let z := min (lane 32 (s.v t.a).val m) 0
                          let f := z % 2 ^ 16
                          let e := 32768 + f * (21513 + f * 11255 / 2 ^ 16) / 2 ^ 16
                          if 31 ≤ -(z / 2 ^ 16) then 0 else e / 2 ^ (-(z / 2 ^ 16)).toNat
          hit := fun m => decide (0 < lane 32 (s.v t.a).val m) } ∧
      (w = .i8 → vecYields (.vlut w t) s t 3 8 [.v t.a t.ba, .v t.b t.bb] false
        { val := fun m => lane 8 (s.v t.b).val (laneBits 8 (s.v t.a).val m) }) ∧
      (w = .i16 → vecYields (.vlut w t) s t 3 16 [.v t.a t.ba, .v t.b t.bb, .v (t.b + 1) true] false
        { val := fun m => let j := laneBits 16 (s.v t.a).val m % 256
                          if j < 128 then lane 16 (s.v t.b).val j else lane 16 (s.v (t.b + 1)).val (j - 128) }) ∧
      (let n := if t.b = 0 then 16 else 32
       vecYields (.vhad w t) s t 4 W av false (clamped W fun m => ((List.range n).map fun j =>
         (if popc ((m % n) &&& j) 5 % 2 = 0 then 1 else -1) * a (m / n * n + j)).sum)) ∧
      (let all := vecSrcs mask W [.v t.a t.ba, .g t.b t.bb] false t.d
       let idx (m : Nat) : Nat := laneBits 16 (s.v t.a).val (m / 8)
       let blk (m : Nat) : Nat := (s.g t.b).val.toNat / 2 ^ (8 * (m / 8 / 4)) % 2 ^ 8
       let entry (m : Nat) : CbEntry := s.old.codebook s.old.cbV (idx m / 2 ^ 8 % 2 ^ 8)
       s.grants t.pred all [s.dv t.d] [] → (∀ m < 2048 / W, blk m ≤ 4 ∧ (entry m).2 = false) → ∀ r : Vec,
       (∀ m < 2048 / W, lane W r m = if laneOn mask W m then
          (let mag : Int := ((entry m).1 / 2 ^ (2 * (m % 8)) % 2 ^ 2 : Nat)
           sx ((if idx m / 2 ^ (m % 8) % 2 = 1 then -mag else mag) * 2 ^ blk m) W) else lane W (s.v t.d).val m) →
       yields (.vcbdec w t) s 3 (s.dv t.d) r (s.anyPoison all) 0)

/-! ## The matrix and transfer maps -/

/-- R309 to R312: a load whose streams and buffer fit joins the engine with its elements a step, and its buffer is owned
and not ready; a strict MLDS waits for its own metadata bytes and traps on an illegal one; R314: MCPS sets CPAT. -/
def Obligations.MatrixLoads : Prop :=
  (∀ (t : Tri) (s : State) (st : Stream) (ks : Nat), s.grants t.pred [] [] [] → s.fcore.bufRead t.d = false →
    let cmd (sparse west : Bool) (needs : List (Nat × Nat × Nat)) : MxCmd :=
      { ctx := s.fx, task := s.cur.taskId, kind := .load t.d sparse ks west (dFmt st.desc), start := s.fcore.cycle + 1,
        due := some (s.fcore.cycle + 136), needs, got := needs.map fun _ => [] }
    let owns (u : State) (sparse west : Bool) : Prop :=
      let b := u.fcore.buf t.d
      b.owner = some s.fx ∧ b.ready = false ∧ b.sparse = sparse ∧ b.west = west ∧ b.fmt = dFmt st.desc ∧ u.cur.keeps s.cur []
    (s.loadOk t.d t.a none = some (st, ks) →
      answers (.mldn t) s (fun u => s.takesMx u (cmd false false [(t.a, 128 * ks, ks)]) ∧ owns u false false) ∧
      answers (.mldw t) s (fun u => s.takesMx u (cmd false true [(t.a, 128 * ks, ks)]) ∧ owns u false true)) ∧
    (s.loadOk t.d t.a (some t.b) = some (st, ks) → dStrict (s.cur.qAt t.b).desc = false →
      answers (.mlds t) s fun u => s.takesMx u (cmd true false [(t.a, 128 * ks, ks), (t.b, 64 * ks, ks / 2)]) ∧ owns u true false) ∧
    (s.loadOk t.d t.a (some t.b) = some (st, ks) → dStrict (s.cur.qAt t.b).desc = true →
      let m := s.cur.qAt t.b
      let own := (m.buf.drop (s.takenBefore t.b)).take (64 * ks)
      let legal (e : Elem) : Prop := (e.1 % 4).toNat < (e.1 / 4 % 4).toNat ∧ e.1 % 256 / 16 = 0
      (own.length = 64 * ks → (∀ e ∈ own, legal e) →
        answers (.mlds t) s fun u =>
          s.takesMx u (cmd true false [(t.a, 128 * ks, ks), (t.b, 64 * ks, ks / 2)]) ∧ owns u true false) ∧
      (own.length = 64 * ks → (∃ e ∈ own, ¬ legal e) → exec (.mlds t) s = .next (s.trap 6 0 t.slot)) ∧
      (own.length < 64 * ks → m.ended = false → exec (.mlds t) s = .next (s.wait .other)) ∧
      (own.length < 64 * ks → m.ended = true → exec (.mlds t) s = .next (s.trap 6 0 t.slot)))) ∧
  ∀ (t : ImmF) (s : State), s.grants t.pred [] [] [] →
    exec (.mcps t) s = .next (s.onCur fun k => { k with cpatSteps := BitVec.ofInt 32 t.imm, cpatLen := t.d })

/-- R310, R315: a run that fits takes the next number of the matrix engine with the buffer as it stands, and its claimed
tile is empty until n + 140; R318: a regrow that fits joins the engine and its buffer is not ready. -/
def Obligations.MatrixRuns : Prop :=
  (∀ (t : Tri) (s : State) (x n row0 rows k step : Nat), t.ext = some x →
    let b := x / 2 ^ 16 % 2
    s.grants t.pred [] [.acc t.d] [] → s.runOk t false = some (n, row0, rows, k, step) → (s.fcore.buf b).ready = true →
    answers (.mrun t) s fun u =>
      s.takesMx u { ctx := s.fx, task := s.cur.taskId, start := s.fcore.cycle + 1, step, due := some (s.fcore.cycle + n + 140),
                    kind := .run t.d row0 rows b (some (s.fcore.buf b)) s.old.cpatSteps.toNat s.old.cpatLen,
                    num := some ((s.tl s.fc .mx).issued + 1), needs := [(t.a, rows * k, k)], got := [[]] } ∧
      (u.tl s.fc .mx).issued = (s.tl s.fc .mx).issued + 1 ∧ (u.tile t.d).full = false ∧ u.cur.keeps s.cur []) ∧
  ∀ (t : Tri) (s : State) (b : Nat) (o c m : Stream), t.ext = some b → s.grants t.pred [] [] [] →
    let buf := s.fcore.buf b
    let kk := if buf.fmt = 1 then 128 else 256
    s.writeStream t.d = some o → s.readStream t.a = some c → s.writeStream t.b = some m →
    buf.sparse = true → buf.owner = some s.fx → dFmt c.desc = buf.fmt → dFmt o.desc = buf.fmt → dFmt m.desc = 5 →
    buf.ready = true → s.fcore.bufRead b = false →
    answers (.mregrow t) s fun u =>
      s.takesMx u { ctx := s.fx, task := s.cur.taskId, kind := .regrow b t.d t.b buf, start := s.fcore.cycle + 1,
                    due := some (s.fcore.cycle + 136), needs := [(t.a, 128 * kk, kk)], got := [[]] } ∧
      u.fcore.buf b = { buf with ready := false } ∧ u.cur.keeps s.cur []

/-- R316, R101, R111: a drain to registers writes each row, with its Hadamard option, shifted down by floor or to
nearest-even, saturated and halved, to a register pair at latency 2n + 24 and takes a number of the matrix engine, and
with CLR leaves the rows zero; to a stream it hands the rows to the engine.
R313, R317: MCLR zeroes a tile, MACCMV moves or adds one, MPOIS reads half of the row poison. -/
def Obligations.TilesDrainAndMove : Prop :=
  (∀ (t : Tri) (s : State) (x : Nat), t.ext = some x → s.claimed t.a = true → x % 2 = 1 →
    let nr := x / 2 ^ 19 % 2 ^ 7 + 1
    let row0 := x / 2 ^ 12 % 2 ^ 7
    let clr := x / 2 ^ 26 % 2 = 1
    let n := x / 2 % 2 ^ 6
    let vw := 8 * 2 ^ (x / 2 ^ 10 % 2 ^ 2)
    let had := x / 2 ^ 8 % 2 ^ 2
    let regs := (List.range (2 * nr)).map fun j => s.dv (t.d + j)
    s.grants t.pred [.acc t.a t.ba] (regs ++ if clr then [.acc t.a] else []) [] →
    answers (.mdrain t) s fun u =>
      (∀ d ∈ regs, u.cur.empties d) ∧ (u.tl s.fc .mx).issued = (s.tl s.fc .mx).issued + 1 ∧
      (had < 3 → vw < 64 → ∀ j < nr,
        let row := (s.tile t.a).row (row0 + j)
        let size := 8 * 2 ^ had
        let e (m : Nat) : Int := if had = 0 then row.getD m 0 else ((List.range size).map fun i =>
          (if popc ((m % size) &&& i) 5 % 2 = 0 then 1 else -1) * row.getD (m / size * size + i) 0).sum
        row.length = 128 → ∀ y : Nat → Int, (∀ m < 128, let r := e m - y m * 2 ^ n
          if x / 2 ^ 7 % 2 = 0 then 0 ≤ r ∧ r < 2 ^ n
          else 2 * r ≤ 2 ^ n ∧ -2 ^ n ≤ 2 * r ∧ (2 * r = 2 ^ n ∨ 2 * r = -2 ^ n → y m % 2 = 0)) →
        ∀ h < 2, ∃ p ∈ u.cur.pend, p.dest = s.dv (t.d + (2 * j + h)) ∧ p.due = s.fcore.cycle + 2 * nr + 24 ∧
          p.poison = (s.tile t.a).poison.getLsbD (row0 + j) ∧
          ∀ m < 64, lane 32 p.val m = min (max (y (64 * h + m)) (-2 ^ (vw - 1))) (2 ^ (vw - 1) - 1)) ∧
      (clr → (u.tile t.a).full = false ∧ ∀ j < nr, (u.tile t.a).row (row0 + j) = List.replicate 128 0) ∧ u.cur.keeps s.cur regs) ∧
  (∀ (t : Tri) (s : State) (x : Nat) (st : Stream), t.ext = some x → s.claimed t.a = true → x % 2 = 0 →
    let clr := x / 2 ^ 26 % 2 = 1
    s.grants t.pred [.acc t.a t.ba] (if clr then [.acc t.a] else []) [] → s.writeStream t.d = some st → st.feed ≠ 2 →
    answers (.mdrain t) s fun u => u.cur.keeps s.cur [] ∧
      s.takesMx u { ctx := s.fx, task := s.cur.taskId, due := none,
                    kind := .drainQ t.a (x / 2 ^ 12 % 2 ^ 7) clr t.d
                      (drainRows (s.tile t.a) (x / 2 ^ 12 % 2 ^ 7) (x / 2 ^ 19 % 2 ^ 7 + 1) (x / 2 ^ 8 % 2 ^ 2)) }) ∧
  (∀ (t : Tri) (s : State), s.claimed t.d = true → s.grants t.pred [] [.acc t.d] [] →
    answers (.mclr t) s fun u => (∀ j, (u.tile t.d).row j = List.replicate 128 0) ∧ (u.tile t.d).poison = 0 ∧
      (u.tile t.d).full = false ∧ u.cur.keeps s.cur [] ∧
      ∃ p ∈ u.cur.pend, p.dest = .acc t.d ∧ p.due = s.fcore.cycle + 2) ∧
  (∀ (t : Tri) (s : State), s.claimed t.a = true → s.claimed t.d = true → s.grants t.pred [.acc t.a t.ba] [.acc t.d] [] →
    answers (.maccmv t) s fun u => (u.tile t.d).full = false ∧ u.cur.keeps s.cur [] ∧
      (t.b = 0 → (∀ j, (u.tile t.d).row j = (s.tile t.a).row j) ∧ (u.tile t.d).poison = (s.tile t.a).poison) ∧
      (t.b ≠ 0 → (∀ j < 128, (u.tile t.d).row j = ((s.tile t.d).row j).zipWith
          (fun y z => min (max (y + z) (-2 ^ 31)) (2 ^ 31 - 1)) ((s.tile t.a).row j)) ∧
        (u.tile t.d).poison = (s.tile t.d).poison ||| (s.tile t.a).poison) ∧
      ∃ p ∈ u.cur.pend, p.dest = .acc t.d ∧ p.due = s.fcore.cycle + 132) ∧
  ∀ (t : Tri) (s : State), s.claimed t.a = true → s.grants t.pred [.acc t.a t.ba] [s.dg t.d] [] →
    yields (.mpois t) s 2 (s.dg t.d) (BitVec.ofNat 2048 ((s.tile t.a).poison.toNat / 2 ^ (64 * t.b) % 2 ^ 64)) false 0

/-- R304 to R308: SBIND binds a stream register to its descriptor and gives a channel-fed one a number, SPAT sets a
packing pattern, SFREE unbinds, SSTAT reads the status. A register whose old stream a command of an earlier task still uses
reads as unbound: SPAT sets its next pattern, and only SBIND waits (R300). R320: DSET loads a descriptor, DSETF sets one field of it, DGET
and DGETF read a word and a field at latency 2, a signed field sign-extended; each waits for updates that are still to
come. -/
def Obligations.StreamsAndDescriptors : Prop :=
  ((∀ (t : Tri) (s : State) (x : Nat), t.ext = some x → s.grants t.pred [] [s.dg t.d] [] →
     let wr := x % 2 = 1
     let feed := x / 2 % 2 ^ 2
     let d := s.cur.dAt t.b
     (s.cur.qAt t.a).bound = false → (s.cur.qAt t.a).freed = false → dBad d s.cur.cbV = false → (wr → dFmt d ≠ 9) →
     (wr → x / 2 ^ 5 % 2 = 1 → s.cur.descBusy t.b = false) →
     let binds (u : State) : Prop :=
       let q := u.cur.qAt t.a
       q.bound = true ∧ q.write = decide wr ∧ q.feed = feed ∧ q.desc = d ∧ q.next = 0 ∧ q.buf = [] ∧ q.pat = (s.cur.qAt t.a).pat ∧
         q.key = s.old.rngkey ∧ q.rstep = s.old.rngstep
     (feed = 0 → let e := Engine.ch (x / 2 ^ 3 % 2 ^ 2)
       numbered (.sbind t) s t.d e (if wr then .streamWr t.a none else .streamRd t.a none) ∧
         answers (.sbind t) s fun u => binds u ∧ (u.cur.qAt t.a).seq = ((s.tl s.fc e).issued + 1) % 2 ^ 32) ∧
     (feed ≠ 0 → answers (.sbind t) s fun u => binds u ∧ u.cur.pend = s.cur.pend ++ [s.due 2 (s.dg t.d) 0 false 0])) ∧
   (∀ (t : Tri) (s : State) (x : Nat), t.ext = some x → s.grants t.pred [] [s.dg t.d] [] →
     let q := s.cur.qAt t.a
     let bad : Prop := dBad (s.cur.dAt t.b) s.cur.cbV = true ∨ x % 2 = 1 ∧ dFmt (s.cur.dAt t.b) = 9
     (q.bound = true → q.freed = false → exec (.sbind t) s = .next (s.trap 2 0 t.slot)) ∧
     (q.freed = true → exec (.sbind t) s = .next (s.wait .other)) ∧
     (q.bound = false → q.freed = false → bad → exec (.sbind t) s = .next (s.trap 2 0 t.slot)) ∧
     (q.bound = false → q.freed = false → ¬ bad → x % 2 = 1 → x / 2 ^ 5 % 2 = 1 → s.cur.descBusy t.b = true →
       exec (.sbind t) s = .next (s.wait .desc))) ∧
   (∀ (t : Tri) (s : State) (bs : List (Byte × Bool)) (p : Pattern), s.grants t.pred [srcB t] [] [srcB t] →
     let q := s.cur.qAt t.a
     (q.bound = true → q.freed = false → exec (.spat t) s = .next (s.trap 2 0 t.slot)) ∧
     (q.bound = false ∨ q.freed = true → s.quiet = true →
     s.readNow { agent := s.focus, kind := .load, asid := s.old.asid, need := none } (s.g t.b).val.toNat 72 = .ready bs →
     ((∃ b ∈ bs, b.2 = true) → exec (.spat t) s = .next (s.trap 5 (BitVec.ofNat 64 s.cur.declFirst) t.slot)) ∧
     ((∀ b ∈ bs, b.2 = false) → patternOf (bs.map (·.1)) = none → exec (.spat t) s = .next (s.trap 2 0 t.slot)) ∧
     ((∀ b ∈ bs, b.2 = false) → patternOf (bs.map (·.1)) = some p → exec (.spat t) s = .next (s.onCur fun k =>
       { k with q := k.q.set t.a (if q.freed then { q with nextPat := some p } else { pat := some p }) })))) ∧
   (∀ (t : Tri) (s : State), s.grants t.pred [] [] [] →
     let q := s.cur.qAt t.a
     let set (z : Stream) : Prop := exec (.sfree t) s = .next (s.onCur fun k => { k with q := k.q.set t.a z })
     let fed : Prop := q.bound = true ∧ q.write = true ∧ q.feed = 1
     (q.freed = true → set { q with nextPat := none }) ∧ (q.freed = false → q.bound = false → set {}) ∧
     (q.freed = false → q.bound = true → s.streamUsed s.fc s.fx t.a = true → exec (.sfree t) s = .next (s.wait .other)) ∧
     (q.freed = false → s.streamUsed s.fc s.fx t.a = false →
       (¬ fed → answers (.sfree t) s fun u => u.cur.qAt t.a = {} ∧ u.cur.keeps s.cur [] ∧ u.mem = s.mem) ∧
       (fed → 4 ≤ q.bytesLeft → exec (.sfree t) s = .next (s.wait .other)) ∧
       (fed → q.bytesLeft = 0 → set {}) ∧ (fed → 0 < q.bytesLeft → q.bytesLeft < 4 → set { q with closing := true }))) ∧
   ∀ (t : Tri) (s : State), s.grants t.pred [] [s.dg t.d] [] →
     let st := s.old.qAt t.a
     let bound : Bool := st.bound && !st.freed
     st.feed < 4 → st.ch < 4 → st.seq < 2 ^ 32 →
     answers (.sstat t) s fun u => ∃ v, s.queued u [s.due 2 (s.dg t.d) (BitVec.ofNat 2048 v) false 0] ∧ v < 2 ^ 64 ∧
       bit v 16 = bound ∧ bit v 22 = (if st.freed then st.nextPat.isSome else st.pat.isSome) ∧
       (bound = false → v % 2 ^ 22 = 0 ∧ v / 2 ^ 23 = 0) ∧
       (bound = true → v % 2 ^ 16 = st.buf.length % 2 ^ 16 ∧ bit v 17 = st.write ∧ fld v 18 2 = st.feed ∧
         fld v 20 2 = st.ch ∧ bit v 24 = st.pois ∧ v / 2 ^ 32 = st.seq)) ∧
  ((∀ (t : Tri) (s : State) (bs : List (Byte × Bool)), s.grants t.pred [srcA t] [] [srcA t] → s.cur.descBusy t.d = false →
     s.quiet = true →
     s.readNow { agent := s.focus, kind := .load, asid := s.old.asid, need := none } (s.valA t).toNat 128 = .ready bs →
     (∀ b ∈ bs, b.2 = false) →
     exec (.dset t) s = .next (s.onCur fun k => { k with d := k.d.set t.d (dKeep (BitVec.ofNat 1024 (leNat (bs.map (·.1))))) })) ∧
   (∀ (t : Tri) (s : State), s.grants t.pred [srcA t] [] [srcA t] → s.cur.descBusy t.d = false →
     let p := descPlace t.b
     answers (.dsetf t) s fun u => s.elsewhere u ∧ u.cur.keeps s.cur [] ∧ (∀ n, n ≠ t.d → u.cur.dAt n = s.cur.dAt n) ∧
       ∀ j < 1024, (u.cur.dAt t.d).getLsbD j =
         if p.1 ≤ j ∧ j < p.1 + p.2.1 then (s.valA t).getLsbD (j - p.1) else (s.cur.dAt t.d).getLsbD j) ∧
   (∀ (t : Tri) (s : State), s.grants t.pred [] [s.dg t.d] [] → s.cur.descBusy t.a = false →
     let d := (s.old.dAt t.a).toNat
     let p := descPlace t.b
     let v := d / 2 ^ p.1 % 2 ^ p.2.1
     yields (.dget t) s 2 (s.dg t.d) (BitVec.ofNat 2048 (d / 2 ^ (64 * t.b) % 2 ^ 64)) false 0 ∧
       yields (.dgetf t) s 2 (s.dg t.d)
         (wide (BitVec.ofInt 64 (if p.2.2 ∧ v / 2 ^ (p.2.1 - 1) = 1 then (v : Int) - 2 ^ p.2.1 else v))) false 0) ∧
   ∀ (t : Tri) (s : State), s.cur.descBusy t.a = true → s.grants t.pred [] [s.dg t.d] [] →
     exec (.dget t) s = .next (s.wait .desc) ∧ exec (.dgetf t) s = .next (s.wait .desc))

/-- R132, R321 to R326: copies, grid, window and collective operations join their engine under the next number, which
lands in Gd at latency 2; a CPYM with any of its four follow-ons leaves that command's destination owned and not ready, or
empty; GRIDLD lands its two registers at the named cycle. A grid command carries the descriptor as read when it issues,
after the context's earlier accesses (log entry 29). -/
def Obligations.EngineCommandsIssue : Prop :=
  let hasRead (s : State) (gd : Nat) (img : List (Byte × Bool)) : Prop :=
    if gd % 32 ≠ 0 then img = []
    else s.quiet = true ∧ s.readNow { agent := s.focus, kind := .load, asid := s.old.asid, need := none } gd 288 = .ready img
  (∀ (t : Tri) (s : State) (x : Nat), t.ext = some x → s.grants t.pred [] [s.dg t.d] [] →
    let dst := s.cur.dAt t.a
    let src := s.cur.dAt t.b
    copyBad dst src x s.cur.cbV = false → (x / 2 ^ 2 % 2 = 1 → s.cur.descBusy t.a = false) →
    numbered (.cpy t) s t.d (.ch (x % 2 ^ 2)) (.copy dst src (some t.a)
      (if x / 2 ^ 2 % 2 = 1 then censusShift dst else x / 2 ^ 3 % 2 ^ 6)
      (if x / 2 ^ 9 % 2 ^ 2 = 3 then dRnd dst else x / 2 ^ 9 % 2 ^ 2) (sx (x / 2 ^ 11 % 2 ^ 8 : Nat) 8))) ∧
  (∀ (t : Tri) (s : State) (x : Nat) (st : Stream) (f : Instr), t.ext = some x →
    let w := (s.g t.b).val.toNat
    let d := s.cur.dAt t.a
    let ok : Bool := match f with
      | .mldn j | .mldw j => (s.loadOk j.d j.a none).isSome
      | .mlds j => (s.loadOk j.d j.a (some j.b)).isSome
      | .mrun j => (s.runOk j true).isSome
      | _ => false
    let held (u : State) (j : Tri) (sparse west : Bool) : Prop :=
      let b := u.fcore.buf j.d
      b.owner = some s.fx ∧ b.ready = false ∧ b.sparse = sparse ∧ b.west = west ∧ b.fmt = dFmt (s.cur.qAt j.a).desc
    followOf (w % 2 ^ 32) (w / 2 ^ 32) = some f → ok = true →
    s.grants t.pred [srcB t] (s.dg t.d :: match f with | .mrun j => [.acc j.d] | _ => []) [srcB t] →
    s.readStream (x / 2 ^ 2 % 2 ^ 4) = some st → st.feed = 2 → dFmt st.desc = dFmt d → dBad d s.cur.cbV = false →
    dCount d * (if dFmt d = 9 then 64 else fmtWidth (dFmt d)) ≤ 131072 →
    numbered (.cpym t) s t.d (.ch (x % 2 ^ 2)) (.cpym (x / 2 ^ 2 % 2 ^ 4) d (w % 2 ^ 32) (w / 2 ^ 32) false) ∧
      answers (.cpym t) s fun u => match f with
        | .mldn j => held u j false false
        | .mldw j => held u j false true
        | .mlds j => held u j true false
        | .mrun j => (u.tile j.d).full = false
        | _ => True) ∧
  (∀ (t : Tri) (s : State) (x : Nat) (img : List (Byte × Bool)), t.ext = some x →
    s.grants t.pred [srcA t, .v t.b t.bb] [s.dv t.d, s.dv (t.d + 1)] [srcA t] → hasRead s (s.valA t).toNat img →
    answers (.gridld t) s fun u => s.joins u .grid
        (.gridld (s.valA t).toNat img (s.v t.b).val s.nextId (s.v t.b).poison (s.dv (t.d + 1))) ∧
      u.cur.empties (s.dv t.d) ∧ u.cur.empties (s.dv (t.d + 1)) ∧ u.cur.keeps s.cur [s.dv t.d, s.dv (t.d + 1)] ∧
      u.cur.pend = s.cur.pend ++ [s.lands (x % 4096) (s.dv t.d), { s.lands (x % 4096) (s.dv (t.d + 1)) with req := s.nextId + 1 }]) ∧
  (∀ (t : Tri) (s : State) (img : List (Byte × Bool)),
    s.grants t.pred [srcA t, .v t.b t.bb, .v (t.b + 1) true, .v (t.b + 2) true] [s.dg t.d] [srcA t] →
    hasRead s (s.valA t).toNat img →
    numbered (.gridsc t) s t.d .grid (.gridsc (s.valA t).toNat img (s.v t.b).val (s.v (t.b + 1)).val (s.v (t.b + 2)).val
      (s.v t.b).poison (s.v (t.b + 1)).poison (s.v (t.b + 2)).poison)) ∧
  (∀ (t : Tri) (s : State) (x : Nat), t.ext = some x →
    s.grants t.pred [srcA t, srcB t, .g (t.b + 1) true] [s.dg t.d] [srcA t, srcB t, .g (t.b + 1) true] →
    let a := (s.g t.a).val.toNat
    let b := (s.g t.b).val.toNat
    let b1 := (s.g (t.b + 1)).val.toNat
    b < 2 ^ 57 → b1 < 2 ^ 50 →
    numbered (.wput t) s t.d (.wp (x % 4)) (.put a (b % 2 ^ 47) (b / 2 ^ 47) (b1 % 2 ^ 18) (b1 / 2 ^ 18) false) ∧
      numbered (.wget t) s t.d (.wp (x % 4)) (.get a (b % 2 ^ 47) (b / 2 ^ 47) (b1 % 2 ^ 18) (b1 / 2 ^ 18) false)) ∧
  ∀ (t : Tri) (s : State), s.grants t.pred [srcA t] [s.dg t.d] [srcA t] →
    numbered (.coll t) s t.d .coll (.coll (s.g t.a).val.toNat)

/-! ## Helper and distributor cores -/

/-- R332: the control operations of a helper: lx.stage advances STAGE, lx.xbase sets XBASE, lx.sbind selects a stream,
lx.ev posts an event in the name of its context, lx.end stops the program, lx.waitt, lx.readt and lx.readth read a
timeline counter; operands out of range are illegal instructions (mcause 2, the model's reading, log entry 30). -/
def Obligations.HelperControl : Prop :=
  ∀ (s : State) (c : Nat) (st : Bool) (r : RType) (j : IType), s.focus.helper? = some (c, st) →
    let v := s.x r.rs1
    let h := s.helper c st
    let value := s.counter c (selKind j.imm.toNat) (selIndex j.imm.toNat)
    (0 < v → v < 2 ^ 31 → h.decl = false →
      exec (.lxStage r) s = .next (s.onCore c fun k => { k with stage := (k.stage + v) % 2 ^ 64 })) ∧
    (v = 0 ∨ 2 ^ 31 ≤ v → exec (.lxStage r) s = .next (s.hartTrap 2 0)) ∧
    (v < 2 ^ 25 → exec (.lxXbase r) s = .next (s.onHelper c st fun h => { h with xbase := v })) ∧
    (2 ^ 25 ≤ v → exec (.lxXbase r) s = .next (s.hartTrap 2 0)) ∧
    (v < 64 → exec (.lxSbind r) s = .next (s.onHelper c st fun h => { h with sel := some (v % 4, v / 4) })) ∧
    (s.evLoad (dieOf c) < 4096 → h.decl = false → ∀ k, (s.ctx c h.ctx).task = some k →
      exec (.lxEv r) s = .next (s.postEvent (dieOf c) 6 [BitVec.ofNat 64 (v % 2 ^ 16 + c * 2 ^ 16 + h.ctx * 2 ^ 26),
        BitVec.ofNat 64 (s.x r.rs2), k.nodeId, BitVec.ofNat 64 k.queue])) ∧
    (h.decl = false → exec (.lxEnd r) s = .next (s.onHelper c st fun h => { h with running := false, sel := none })) ∧
    (h.decl = true → exec (.lxEnd r) s = .next ((s.onHelper c st fun h => { h with decl := false }).hartTrap 7 0)) ∧
    exec (.lxReadt j) s = .next (s.setX j.rd (value % 2 ^ 32)) ∧
    exec (.lxReadth j) s = .next (s.setX j.rd (value / 2 ^ 32 % 2 ^ 32)) ∧
    (∀ n, n ≤ value → value < n + 2 ^ 31 → v = n % 2 ^ 32 →
      s.badNums c (selKind j.imm.toNat) (selIndex j.imm.toNat) n h.reported [] = [] → j.rs1 = r.rs1 →
      answers (.lxWaitt j) s fun u => (∀ q, q ≠ j.rd → u.x q = s.x q) ∧ u.mem = s.mem ∧ u.mark = s.mark ∧ (j.rd ≠ 0 → u.x j.rd = 0)) ∧
    (∀ n, value < n → n < value + 2 ^ 31 → v = n % 2 ^ 32 → j.rs1 = r.rs1 → exec (.lxWaitt j) s = .next s.hartWait)

/-- R333, R334: lx.cpy reads its 272-byte block and joins a channel with its copy, its number going to rd; lx.spush adds
four bytes to the selected read stream when they fit and lx.spop takes four from the selected write stream;
lx.sstat reads the status. -/
def Obligations.HelperStreams : Prop :=
  (∀ (s u : State) (c : Nat) (st : Bool) (r : RType) (bs : List Byte), s.focus.helper? = some (c, st) →
    s.x r.rs2 < 4 → s.x r.rs1 % 8 = 0 → s.hartRead .load (s.x r.rs1) 272 = .got bs u →
    let x := (u.helper c st).ctx
    let dst := BitVec.ofNat 1024 (leNat (bs.take 128))
    let src := BitVec.ofNat 1024 (leNat ((bs.drop 128).take 128))
    let w := leNat ((bs.drop 256).take 4)
    let e := Engine.ch (s.x r.rs2)
    cpyBlockBad bs dst src w (u.ctx c x).cbV = false → copyBad dst src w (u.ctx c x).cbV = false → r.rd ≠ 0 → u.focus = s.focus →
    answers (.lxCpy r) s fun t => t.x r.rd = ((u.tl c e).issued + 1) % 2 ^ 32 ∧ (t.tl c e).issued = (u.tl c e).issued + 1 ∧
      ∃ q, (t.tl c e).queue = (u.tl c e).queue ++ [q] ∧ q.num = (u.tl c e).issued + 1 ∧ q.ctx = x ∧ q.core = c ∧
        q.cmd = .copy dst src none (w / 2 ^ 3 % 2 ^ 6) (if w / 2 ^ 9 % 2 ^ 2 = 3 then dRnd dst else w / 2 ^ 9 % 2 ^ 2)
          (sx (w / 2 ^ 11 % 2 ^ 8 : Nat) 8)) ∧
  (∀ (s : State) (c x q : Nat) (st : Bool) (r : RType), s.focus.helper? = some (c, st) → (s.helper c st).sel = some (x, q) →
    r.rd ≠ 0 →
    let z := (s.ctx c x).qAt q
    let grown := ({ z with bytes := z.bytes ++ (leBytes 4 (s.x r.rs1)).map fun b => (b, false) } : Stream).cut 4
    (z.bound = true → z.write = false → z.feed = 1 → z.freed = false →
      (z.fitsFour = true → answers (.lxSpush r) s fun t => t.x r.rd = 1 ∧ (t.ctx c x).qAt q = grown ∧ t.mem = s.mem) ∧
      (z.fitsFour = false → exec (.lxSpush r) s = .next s.hartWait)) ∧
    (z.bound = false → exec (.lxSpush r) s = .next (s.setX r.rd 0)) ∧
    (z.bound = true → z.write = true → z.feed = 1 → z.freed = false →
      let p := z.packFour 4
      (4 ≤ p.bytes.length → z.closing = false → answers (.lxSpop r) s fun t =>
        t.x r.rd = leNat ((p.bytes.take 4).map (·.1)) % 2 ^ 32 ∧ (t.ctx c x).qAt q = { p with bytes := p.bytes.drop 4 } ∧ t.mem = s.mem) ∧
      (p.bytes.length < 4 → z.closing = false → exec (.lxSpop r) s = .next s.hartWait)) ∧
    answers (.lxSstat r) s fun t => t.x r.rd = z.status % 2 ^ 32 ∧ t.mem = s.mem)

/-- R331: an exception of a helper halts it with its cause, address and pc, and posts a kind 5 record that names the
loader as context 4 and the storer as context 5. -/
def Obligations.HelperExceptions : Prop :=
  ∀ (s : State) (c cause tval : Nat) (st : Bool), s.focus.helper? = some (c, st) →
    let u := s.hartTrap cause tval
    let h := u.helper c st
    h.halted = true ∧ h.running = false ∧ h.mcause = cause ∧ h.mtval = tval ∧ h.mepc = (s.helper c st).pc ∧
      h.x = (s.helper c st).x ∧ u.mem = s.mem ∧
      (u.die (c / 20)).evWait = (s.die (c / 20)).evWait ++
        [{ kind := 5, words := [BitVec.ofNat 64 (c % 20 + (if st then 5 else 4) * 32), BitVec.ofNat 64 cause, 0, 0] }]

/-- R338: an exception of a distributor core with INTRAP 0 sets it, saves mcause, mepc and mtval and goes to mtvec; with
INTRAP 1 the primary hands over to the relief core, which starts at the base of its instruction memory, and a TYPE 19
record or the loss of distribution follows a failure of the relief. The entry to the own handler, with mepc, mtval and the
address in mtvec, is that of the RISC-V volumes of R328 (log entry 26). -/
def Obligations.DistributorExceptions : Prop :=
  ∀ (s : State) (d cause tval : Nat), s.focus = .dist d →
    let k := s.distCore d
    let u := s.hartTrap cause tval
    ((s.die d).intrap = false → (u.die d).intrap = true ∧ (u.distCore d).mcause = cause ∧
      (u.distCore d).mepc = BitVec.ofNat 64 k.pc ∧ (u.distCore d).mtval = BitVec.ofNat 64 tval ∧
      (u.distCore d).pc = k.mtvec.toNat / 4 * 4 ∧ (u.distCore d).x = k.x ∧ u.mem = s.mem ∧ (u.die d).role = (s.die d).role) ∧
    ((s.die d).intrap = true → (s.die d).role = false → (u.die d).role = true ∧ u.mem = s.mem ∧ (u.distCore d).pc = 2 ^ 63 ∧
      (u.distCore d).halted = false ∧ (u.distCore d).x.get 10 0 = BitVec.ofNat 64 cause ∧ (u.die d).prim.halted = true ∧
      (u.die d).prim.mcause = cause ∧ (u.die d).kicks = (s.die d).kicks ∧ (u.die d).bcnt = (s.die d).bcnt) ∧
    ((s.die d).intrap = true → (s.die d).role = true → (s.die d).lost = false → (u.die d).lost = true ∧
      (u.die d).relf.halted = true ∧ ∀ p < 2, (u.port p).recs = (s.port p).recs ++
        [{ typ := 19, die := d, queue := 0, words := [BitVec.ofNat 64 d, BitVec.ofNat 64 cause] }])

/-- R130, R328, R430: the rows that are base instructions: loads extend what they read, stores write the low bytes, an AMO
of a distributor on physical memory writes its result and gives rd and AMOOLD the old value, one on a virtual address does
so with what its access gives, FENCE consumes the declined-store flag of a helper, and WFI goes on when a record or a kick
is there. LR reserves what it reads, SC writes and gives 0 while the reservation stands, else gives 1, and a store to the
reserved bytes breaks it. What R328 takes from the RISC-V volumes is as log entry 26 reads them. -/
def Obligations.BaseInstructionRows : Prop :=
  (∀ (s u : State) (j : IType) (bs : List Byte) (a n : Nat),
    a = (((s.x j.rs1 : Int) + j.imm) % 2 ^ s.xlen).toNat → s.hartRead .load a n = .got bs u → u.focus = s.focus →
    let v : Int := leNat bs
    let gives (z : RvLoad) (y : Int) : Prop := exec (.riscvLoad z j) s = .next (u.setX j.rd (y % 2 ^ s.xlen).toNat)
    (n = 1 → gives .lb (if v / 2 ^ 7 % 2 = 1 then v % 2 ^ 8 - 2 ^ 8 else v % 2 ^ 8)) ∧
      (n = 2 → gives .lh (if v / 2 ^ 15 % 2 = 1 then v % 2 ^ 16 - 2 ^ 16 else v % 2 ^ 16)) ∧
      (n = 4 → gives .lw (if v / 2 ^ 31 % 2 = 1 then v % 2 ^ 32 - 2 ^ 32 else v % 2 ^ 32)) ∧
      (n = 1 → v < 2 ^ 8 → gives .lbu v) ∧ (n = 2 → v < 2 ^ 16 → gives .lhu v) ∧
      (n = 4 → v < 2 ^ 32 → s.focus.helper? = none → gives .lwu v) ∧ (n = 8 → v < 2 ^ 64 → s.focus.helper? = none → gives .ld v)) ∧
  (∀ (s : State) (z : MemSize) (j : SType),
    let a := (((s.x j.rs1 : Int) + j.imm) % 2 ^ s.xlen).toNat
    (∀ u, s.hartWrite a (mBytes z) (s.x j.rs2 % 2 ^ (8 * mBytes z)) = .done u → exec (.riscvStore z j) s = .next u) ∧
      (s.hartWrite a (mBytes z) (s.x j.rs2 % 2 ^ (8 * mBytes z)) = .fault → exec (.riscvStore z j) s = .next (s.hartTrap 7 a))) ∧
  (∀ (s : State) (c : Nat) (st : Bool) (z : MemSize) (j : SType), s.focus.helper? = some (c, st) →
    let a := (((s.x j.rs1 : Int) + j.imm) % 2 ^ 32).toNat
    0x10000 ≤ a → a + mBytes z ≤ 0x14000 →
    answers (.riscvStore z j) s fun u => (∀ m < mBytes z, u.byte (dstoreKey c st.toNat (a - 0x10000) + m) =
        BitVec.ofNat 8 (s.x j.rs2 / 2 ^ (8 * m))) ∧
      ∀ key, (∀ m < mBytes z, key ≠ dstoreKey c st.toNat (a - 0x10000) + m) → u.byte key = s.byte key) ∧
  (∀ (s : State) (d pa : Nat) (r : RType) (dbl aq rl : Bool) (bs : List Byte), s.focus = .dist d →
    let n := if dbl then 8 else 4
    let a := s.x r.rs1
    distSpot a n = .phys pa → pa % n = 0 → s.physGot pa n = .got bs s →
    let old := leNat bs
    let m := 2 ^ (8 * n)
    let x := s.x r.rs2 % m
    let runs (op : RvAmo) (v : Nat) : Prop := answers (.riscvAmo op dbl aq rl r) s fun u =>
      u.mem = (s.physWrite d pa (leBytes n v)).1.mem ∧ (r.rd ≠ 0 → u.x r.rd = (sx (old : Nat) (8 * n) % 2 ^ 64).toNat) ∧
        (u.die d).amoAddr = BitVec.ofNat 64 a ∧ (u.die d).amoOld = BitVec.ofInt 64 (sx (old : Nat) (8 * n))
    let less (p q : Nat) : Prop := sx (p : Nat) (8 * n) ≤ sx (q : Nat) (8 * n)
    (s.physRoom d pa n = false → ∀ op, exec (.riscvAmo op dbl aq rl r) s = .next s.hartWait) ∧
    (s.physRoom d pa n = true → (∀ v, (s.physWrite d pa (leBytes n v)).2 = false) → old < m →
      runs .swap x ∧ runs .add ((old + x) % m) ∧ runs .and (old &&& x) ∧ runs .or (old ||| x) ∧ runs .xor (old ^^^ x) ∧
      runs .minu (min old x) ∧ runs .maxu (max old x) ∧ (less old x → runs .min old) ∧ (less x old → runs .min x) ∧
      (less x old → runs .max old) ∧ (less old x → runs .max x))) ∧
  (∀ (s : State) (d va : Nat) (r : RType) (op : RvAmo) (dbl aq rl : Bool), s.focus = .dist d →
    let n := if dbl then 8 else 4
    let a := s.x r.rs1
    let i := Instr.riscvAmo op dbl aq rl r
    let asked := s.ask { agent := .dist d, kind := .atomic, asid := (s.distCore d).asid } 0 [] 0 0 [.read va n]
      (some ((amoOp op).1, n, (amoOp op).2, s.x r.rs2, none))
    distSpot a n = .va va →
    (asked = .still → exec i s = .next s.hartWait) ∧ (∀ u, asked = .went u → exec i s = .next u.hartWait) ∧
    ∀ p decl u, asked = .got p decl u →
      (p.poisoned = true → exec i s = .next (u.hartTrap 7 a)) ∧
      (p.poisoned = false → u.focus = s.focus → let old := sx (gotNat p.data.flatten : Nat) (8 * n)
        answers i s fun t => t.mem = u.mem ∧ (r.rd ≠ 0 → t.x r.rd = (old % 2 ^ 64).toNat) ∧
          (t.die d).amoAddr = BitVec.ofNat 64 a ∧ (t.die d).amoOld = BitVec.ofInt 64 old)) ∧
  (∀ (s : State) (d w len : Nat), s.focus = .dist d → w % 2 ^ 7 = 0x2F →
    let n := if w / 2 ^ 12 % 2 ^ 3 = 3 then 8 else 4
    let a := s.x (w / 2 ^ 15 % 2 ^ 5)
    let rd := w / 2 ^ 7 % 2 ^ 5
    let v := s.x (w / 2 ^ 20 % 2 ^ 5) % 2 ^ (8 * n)
    let is (t : State) (P : Prop) : Prop := s.rvBase w len = (t, none) ∧ P
    (w / 2 ^ 27 % 2 ^ 5 = 2 → w / 2 ^ 20 % 2 ^ 5 = 0 →
      (a % n ≠ 0 → s.rvBase w len = (s.hartTrap 4 a, none)) ∧
      (∀ bs u, a % n = 0 → s.hartRead .load a n = .got bs u → u.focus = s.focus → ∃ t, is t (t.mem = u.mem ∧
        (t.distCore d).resv = some (a, n, u.resvKey d a n) ∧
        (rd ≠ 0 → t.x rd = (sx (leNat bs : Nat) (8 * n) % 2 ^ 64).toNat)))) ∧
    (w / 2 ^ 27 % 2 ^ 5 = 3 →
      (a % n ≠ 0 → s.rvBase w len = (s.hartTrap 6 a, none)) ∧
      (a % n = 0 → s.result? (.dist d) 0 = none → s.owes (.dist d) 0 = false →
        (∀ k u, (s.distCore d).resv = some (a, n, k) → s.hartWrite a n v = .done u → u.focus = s.focus →
          ∃ t, is t (t.mem = u.mem ∧ (t.distCore d).resv = none ∧ (rd ≠ 0 → t.x rd = 0))) ∧
        ((∀ k, (s.distCore d).resv ≠ some (a, n, k)) →
          ∃ t, is t (t.mem = s.mem ∧ (t.distCore d).resv = none ∧ (rd ≠ 0 → t.x rd = 1)))))) ∧
  (∀ (s : State) (d k n : Nat), ((s.breakResv k n).distCore d).resv =
    if (s.distCore d).reserves k n then none else (s.distCore d).resv) ∧
  (∀ (s : State) (fm p q c : Nat) (st : Bool), s.focus.helper? = some (c, st) →
    ((s.helper c st).decl = false → exec (.riscvFence fm p q) s = .next s) ∧
      ((s.helper c st).decl = true →
        exec (.riscvFence fm p q) s = .next ((s.onHelper c st fun h => { h with decl := false }).hartTrap 7 0))) ∧
  (∀ (s : State) (d : Nat), s.focus = .dist d →
    ((s.die d).extPending = true → exec .wfi s = .next (s.onDist d fun k => { k with wfi := false })) ∧
      ((s.die d).extPending = false → exec .wfi s = .next ((s.onDist d fun k => { k with wfi := true }).hartWait)))

/-- R340: lx.bind gives the next ticket of its core and adds the record's entry, not released, to its run queue; lx.rel
releases or cancels an entry that waits, and answers 0, 1 for a ticket that is not issued and 2 for one that has bound. -/
def Obligations.DistributorTickets : Prop :=
  (∀ (s u : State) (d : Nat) (r : RType) (bs : List Byte), s.focus = .dist d → s.x r.rs2 < 20 →
    s.hartRead .load (s.x r.rs1) 128 = .got bs u → u.focus = s.focus →
    let c := 20 * d + s.x r.rs2
    (u.core c).takes = true →
    let tk := s.x r.rs2 * 2 ^ 32 + u.nextTicket c
    answers (.lxBind r) s fun t => (r.rd ≠ 0 → t.x r.rd = tk % 2 ^ 64) ∧ (t.die d).bcnt.get (s.x r.rs2) 0 = u.nextTicket c ∧
      t.mem = u.mem ∧ ∃ e, (t.core c).runq = (u.core c).runq ++ [e] ∧ e.ticket = tk ∧ e.released = false ∧ e.spawned = false ∧
        e.entry = recWord bs 0 % 2 ^ 56 ∧ e.asid = recWord bs 0 / 2 ^ 56 % 2 ^ 6 ∧ e.args = recWord bs 1 % 2 ^ 56 ∧
        e.nodeId = BitVec.ofNat 64 (recWord bs 3) ∧ e.g10 = BitVec.ofNat 64 (recWord bs 4) ∧
        e.gang = some (recWord bs 13 % 2 ^ 32, recWord bs 13 / 2 ^ 32 % 2 ^ 5)) ∧
  ∀ (s : State) (d : Nat) (r : RType), s.focus = .dist d →
    let t := s.x r.rs1
    let c := 20 * d + t / 2 ^ 32
    let waits (e : Entry) : Bool := e.ticket = t && !e.spawned && !e.released
    let cancel : Bool := s.x r.rs2 = 1
    s.x r.rs2 < 2 →
    ((s.die d).issued t = false → exec (.lxRel r) s = .next (s.setX r.rd 1)) ∧
    ((s.die d).issued t = true → (s.core c).runq.any waits = false → exec (.lxRel r) s = .next (s.setX r.rd 2)) ∧
    ((s.die d).issued t = true → (s.core c).runq.any waits = true → answers (.lxRel r) s fun u =>
      (r.rd ≠ 0 → u.x r.rd = 0) ∧ u.mem = s.mem ∧
        (u.core c).runq = (if cancel then (s.core c).runq.filter fun e => !(e.ticket = t && !e.spawned)
          else (s.core c).runq.map fun e => if e.ticket = t ∧ e.spawned = false then { e with released := true } else e))

/-- R341, R343, R344, R345, R429, R30, R32, R37: lx.jwr writes the next journal record with its number, lx.kscan clears
and names the lowest kick, lx.asid, lx.inval, lx.mark and lx.answ act on translation, lx.evget takes the oldest record
with its kind and lx.evput posts a port record. The address that lx.mark's access fault reports, the address space of
lx.answ and the bits that lx.evput does not look at are the model's reading (log entry 33). -/
def Obligations.DistributorServices : Prop :=
  (∀ (s : State) (d : Nat) (r : RType), s.focus = .dist d →
    let v := s.x r.rs1
    let y := s.x r.rs2
    (v < 64 → exec (.lxAsid r) s = .next (s.onDist d fun k => { k with asid := v })) ∧
      exec (.lxInval r) s = .next (s.invalidate (s.distCore d).asid v y) ∧
      (y < 2 → exec (.lxAnsw r) s = .next (s.answer (s.distCore d).asid v (y = 1))) ∧
      (State.homeHere d v = true → answers (.lxMark r) s fun u => u.mem = s.mem ∧
        ((s.distCore d).asid, pageOf v) ∈ (u.die d).migrating ∧ ∀ p ∈ (s.die d).migrating, p ∈ (u.die d).migrating) ∧
      (State.homeHere d v = false → exec (.lxMark r) s = .next (s.hartTrap 7 v)) ∧
      ((s.die d).kicks = 0 → exec (.lxKscan r) s = .next (s.setX r.rd (2 ^ 64 - 1))) ∧
      (∀ n < 64, (s.die d).kicks.getLsbD n = true → (∀ m < n, (s.die d).kicks.getLsbD m = false) → r.rd ≠ 0 →
        answers (.lxKscan r) s fun u => u.x r.rd = n ∧ (u.die d).kicks.getLsbD n = false ∧
          ∀ m, m ≠ n → (u.die d).kicks.getLsbD m = (s.die d).kicks.getLsbD m) ∧
      ((s.die d).untaken = [] → r.rd ≠ 0 → answers (.lxEvget r) s fun u => u.x r.rd = 0 ∧ u.mem = s.mem) ∧
      (∀ e es u, (s.die d).untaken = e :: es → s.distPut d v e.bytes = .done u →
        exec (.lxEvget r) s = .next ((u.onDie d Die.take).setX r.rd e.kind))) ∧
  (∀ (s u : State) (d : Nat) (r : RType) (bs : List Byte), s.focus = .dist d → s.hartRead .load (s.x r.rs1) 64 = .got bs u →
    u.focus = s.focus → bs.length = 64 →
    let n := (u.die d).jtail
    (answers (.lxJwr r) s fun t => (r.rd ≠ 0 → t.x r.rd = n % 2 ^ 64) ∧ (t.die d).jtail = (n + 1) % 2 ^ 32 ∧
      (∀ m < 4, t.byte (journalKey d (64 * (n % 16384)) + m) = BitVec.ofNat 8 (n / 2 ^ (8 * m))) ∧
      (∀ m, 4 ≤ m → m < 64 → t.byte (journalKey d (64 * (n % 16384)) + m) = bs.getD m 0) ∧
      ∀ key, (∀ m < 64, key ≠ journalKey d (64 * (n % 16384)) + m) → t.byte key = u.byte key) ∧
    answers (.lxEvput r) s fun t =>
      let w := recWord bs 0
      t = u.postPort (s.x r.rs2 % 2) (w % 2 ^ 8) (w / 2 ^ 8 % 2 ^ 5) (w / 2 ^ 13 % 2 ^ 6)
        ((List.range 7).map fun m => BitVec.ofNat 64 (recWord bs (m + 1))))

/-! ## Events of the pipeline and of accesses -/

/-- R62, R63, R208, R214, R215, R217, R273: at its cycle a fixed-latency result or a landing whose data is here reaches
its register, which becomes full; returned data that is early takes a landing-buffer entry, or the core's input while
none is free, which holds the data behind it back, and late data is written at once; a YIELD that has run out makes its
context ready, and a loss count of 254 becomes 255. -/
def Obligations.ResultsAndArrivals : Prop :=
  (∀ (s : State) (c x : Nat) (b : Bool), answers (if b then .landing c x else .fixedResult c x) s fun u =>
    let k := s.ctx c x
    let due (p : Pend) : Prop := p.due ≤ (s.core c).cycle ∧ p.arrived = true ∧ p.landed = b
    (∀ p ∈ k.pend, due p → (∀ q ∈ k.pend, due q → q.dest = p.dest → q = p) → (u.ctx c x).holds p.dest p.val p.poison) ∧
      (∀ p ∈ k.pend, due p → ∀ t, p.dest = .acc t → ((u.core c).acc.get t {}).full = true) ∧
      (∀ p, p ∈ (u.ctx c x).pend ↔ p ∈ k.pend ∧ ¬ due p) ∧
      (∀ ds, (∀ p ∈ k.pend, due p → p.dest ∈ ds) → (u.ctx c x).keeps k ds) ∧
      u.mem = s.mem ∧ (∀ d, d ≠ c → u.core d = s.core d) ∧ ∀ y, y ≠ x → u.ctx c y = s.ctx c y) ∧
  (∀ (s : State) (r : Reply), s.findReply r.id = some r →
    (s.inputFree r = false → ∀ i ∈ [Instr.returnArrival r.id, .lateArrival r.id], exec i s = .next s) ∧
    (s.inputFree r = true → s.early r = true → (s.core r.core).heldEarly < 64 →
      answers (.returnArrival r.id) s fun u => u.findReply r.id = none ∧ (u.ctx r.core r.x).keeps (s.ctx r.core r.x) [] ∧
        (u.ctx r.core r.x).pend = (s.ctx r.core r.x).pend.map fun p =>
          if p.landed ∧ p.req = r.id then { p with arrived := true, val := r.val, poison := r.poison, sat := r.sat, held := true } else p) ∧
    (s.inputFree r = true → s.early r = true → 64 ≤ (s.core r.core).heldEarly → exec (.returnArrival r.id) s =
      .next { s with replies := s.replies.map fun q => if q.id = r.id then { q with input := true } else q }) ∧
    (s.early r = true → exec (.lateArrival r.id) s = .next s)) ∧
  (∀ (s : State) (r : Reply) (l₁ l₂ : List Pend) (p : Pend), s.findReply r.id = some r → s.inputFree r = true →
    (s.ctx r.core r.x).pend = l₁ ++ p :: l₂ → p.landed = true → p.req = r.id → p.due ≤ (s.core r.core).cycle →
    (∀ q ∈ l₁ ++ l₂, q.landed = true → q.req ≠ r.id ∧ (s.core r.core).cycle < q.due) →
    ∀ i ∈ [Instr.returnArrival r.id, .lateArrival r.id], answers i s fun u =>
      u.findReply r.id = none ∧ (u.ctx r.core r.x).holds p.dest r.val r.poison ∧ (u.ctx r.core r.x).pend = l₁ ++ l₂ ∧
        (u.ctx r.core r.x).counted (s.ctx r.core r.x) r.sat ∧ (u.ctx r.core r.x).keeps (s.ctx r.core r.x) [p.dest] ∧ u.mem = s.mem) ∧
  (∀ (s : State) (c x till : Nat), (s.ctx c x).status = .waiting (.yielding till) →
    (till ≤ (s.core c).cycle → exec (.yieldExpiry c x) s = .next (s.onCtx c x fun k => { k with status := .ready })) ∧
    ((s.core c).cycle < till → exec (.yieldExpiry c x) s = .next s)) ∧
  ∀ (s : State) (c x : Nat), (s.ctx c x).status = .ready →
    ((s.ctx c x).loss = 254 → exec (.lossCountDue c x) s = .next (s.onCtx c x fun k => { k with loss := 255 })) ∧
    ((s.ctx c x).loss ≠ 254 → exec (.lossCountDue c x) s = .next s)

/-- R28, R45, R66, R123, R261: the unit that serves an access executes it once its turn has come and nothing blocks it: a
read returns the bytes of its place with their poison, a write leaves its bytes there and no byte elsewhere changed, an
atomic writes its result and returns the old value, and a misaligned one is declined and lands poisoned; one whose page
faults is parked there. -/
def Obligations.AccessesAtHomes : Prop :=
  let served (r : Req) : Instr :=
    if r.unit = 2 then .mtuAccess r.id else if r.unit = 1 then .ringAccess r.id else .scratchpadAccess r.id
  (∀ (s : State) (r : Req) (c x : Nat) (conv : Conv) (va n k leaf : Nat), s.findReq r.id = some r → s.mayServe r = true →
    r.ret = .reg c x conv → r.atom = none → r.prog = {} → r.pieces = [.read va n] → cuts va n = [(va, n)] →
    (∀ i ∈ [0, r.id], s.place r.acc va n .raw i r.decl = .at k leaf) →
    let bs := (List.range n).map fun i => (s.byte (k + i), s.linePoison (k + i))
    answers (served r) s fun u => u.mem = s.mem ∧ u.findReq r.id = none ∧
      ∃ y ∈ u.replies, y.id = r.id ∧ y.core = c ∧ y.x = x ∧ y.val = (convert conv [bs]).1 ∧ y.poison = bs.any (·.2)) ∧
  (∀ (s : State) (r : Req) (va k leaf : Nat) (bs : List Byte) (poison : Bool), s.findReq r.id = some r → s.mayServe r = true →
    r.ret = .none → r.atom = none → r.pieces = [.raw va bs poison] → cuts va bs.length = [(va, bs.length)] →
    s.place r.acc va bs.length .raw r.id r.decl = .at k leaf →
    answers (served r) s fun u => u.findReq r.id = none ∧ u.replies = s.replies ∧
      (∀ a, u.byte a = if k ≤ a ∧ a < k + bs.length then bs.getD (a - k) 0 else s.byte a) ∧
      (∀ a, k ≤ a → a < k + bs.length → poison = true → u.linePoison a = true)) ∧
  (∀ (s : State) (r : Req) (c x : Nat) (conv : Conv) (va n k leaf v : Nat) (op : AtomOp) (uns : Bool) (w : Nat) (cas : Option Nat),
    s.findReq r.id = some r → s.mayServe r = true → r.ret = .reg c x conv → r.prog = {} → r.atom = some (op, n, uns, w, cas) →
    r.pieces = [.read va n] → va % n = 0 → s.place r.acc va n .int r.id r.decl = .at k leaf →
    atomNew op uns (8 * n) (s.nat k n) (w % 2 ^ (8 * n)) cas = some v →
    answers (served r) s fun u => u.findReq r.id = none ∧
      (∀ a, u.byte a = if k ≤ a ∧ a < k + n then (leBytes n v).getD (a - k) 0 else s.byte a) ∧
      ∃ y ∈ u.replies, y.id = r.id ∧ y.val = (convert conv [(leBytes n (s.nat k n)).map fun b => (b, s.poisoned k n)]).1) ∧
  (∀ (s : State) (r : Req) (va n k leaf tag v : Nat) (op : AtomOp) (uns : Bool) (w : Nat),
    s.findReq r.id = some r → s.mayServe r = true → r.ret = .own tag → r.prog = {} → r.atom = some (op, n, uns, w, none) →
    r.pieces = [.read va n] → va % n = 0 → s.place r.acc va n .int r.id r.decl = .at k leaf →
    atomNew op uns (8 * n) (s.nat k n) (w % 2 ^ (8 * n)) none = some v →
    answers (served r) s fun u => u.findReq r.id = none ∧
      (∀ a, u.byte a = if k ≤ a ∧ a < k + n then (leBytes n v).getD (a - k) 0 else s.byte a) ∧
      ∃ y ∈ u.results, y.agent = r.agent ∧ y.tag = tag ∧
        y.prog.data = [(leBytes n (s.nat k n)).map fun b => (b, s.poisoned k n)]) ∧
  (∀ (s : State) (r : Req) (c x : Nat) (conv : Conv) (va n : Nat) (op : AtomOp) (uns : Bool) (w : Nat) (cas : Option Nat),
    s.findReq r.id = some r → s.mayServe r = true → r.ret = .reg c x conv → r.atom = some (op, n, uns, w, cas) →
    r.pieces = [.read va n] → 0 < n → va % n ≠ 0 →
    answers (served r) s fun u => u.findReq r.id = none ∧ u.mem = s.mem ∧
      ∃ y ∈ u.replies, y.id = r.id ∧ y.core = c ∧ y.x = x ∧ y.poison = true) ∧
  (∀ (s : State) (r : Req) (va n : Nat) (bs : List Byte) (cause level e : Nat), s.findReq r.id = some r →
    s.mayServe r = true → r.atom = none → r.pieces = [.raw va bs false] → cuts va bs.length = [(va, n)] → r.unit = 2 →
    s.place r.acc va n .raw r.id r.decl = .fault cause level e → s.canPark [] va = true →
    answers (.mtuAccess r.id) s fun u => u.mem = s.mem ∧ u.findReq r.id = none ∧
      u.parked = s.parked ++ [{ mtu := mtuIndex va, asid := r.asid, page := pageOf va, cause, req := r }] ∧
      (s.pageParked r.asid va 0 = false → ∃ ws, (u.die (homeDie va)).evWait = (s.die (homeDie va)).evWait ++ [{ kind := 3, words := ws }]
        ∧ ws.head? = some (BitVec.ofNat 64 (va % 2 ^ 56)))) ∧
  ∀ (s : State) (asid va level e : Nat), s.walk asid va = some (.leaf level e) → s.cached asid level va = none →
    answers (.pageWalk asid va) s fun u => u.mem = s.mem ∧ u.cached asid level va = some e

/-- R136 to R142: a packet that waits at its source is sent when what it follows is done, a release when its flush is, one
of another agent than a context when its streams have room; its
home takes it in stream order while the hold buffers have room, where it waits until its pairs are satisfied and it
overtakes none; an acknowledgement carries APPLIED, and at the source ACKED advances and past-table entries it covers
become 0. -/
def Obligations.PacketsAndAcknowledgements : Prop :=
  (∀ (s : State) (r : Req), s.findReq r.id = some r →
    let reaches (z : Stage) : State := { s with net := s.net.map fun q => if q.id = r.id then { r with stage := z } else q }
    (r.stage = .sent →
      (s.homeTakes r = true → s.satisfied r = true → exec (.trackedPacketArrival r.id) s = .next (reaches .home)) ∧
      (s.homeTakes r = true → s.satisfied r = false → exec (.trackedPacketArrival r.id) s = .next (reaches .held)) ∧
      (s.homeTakes r = false → exec (.trackedPacketArrival r.id) s = .next s)) ∧
    (r.stage = .held →
      let behind : Prop := ∃ q ∈ s.ahead r .held, q.unit = r.unit
      (s.satisfied r = true → ¬ behind → exec (.trackedPacketArrival r.id) s = .next (reaches .home)) ∧
      (s.satisfied r = false ∨ behind → exec (.trackedPacketArrival r.id) s = .next s)) ∧
    (∀ c x, r.stage = .flush → r.agent = .ctx c x → r.homes = [] →
      (s.sourceBusy r = false → s.mayRelease r c x [] = true → exec (.trackedPacketArrival r.id) s = .next { s with
        net := (s.net.filter fun q => q.id ≠ r.id) ++ [{ r with stage := .home, cyc := s.cycleAt r.agent r.pieces }] }) ∧
      (s.sourceBusy r = true ∨ s.mayRelease r c x [] = false → exec (.trackedPacketArrival r.id) s = .next s))) ∧
  (∀ (s : State) (r : Req) (c x : Nat), s.findReq r.id = some r → r.stage = .flush → r.agent = .ctx c x → r.homes ≠ [] →
    (s.maySend r c x = true → answers (.trackedPacketArrival r.id) s fun u => u.mem = s.mem ∧
      ∃ q, u.findReq r.id = some q ∧ q.stage = .sent ∧ q.pieces = r.pieces ∧ q.homes.map (·.1) = r.homes.map (·.1)) ∧
    (s.maySend r c x = false → exec (.trackedPacketArrival r.id) s = .next s)) ∧
  (∀ (s : State) (r : Req), s.findReq r.id = some r → r.stage = .flush → (∀ c x, r.agent ≠ .ctx c x) →
    (s.streamOpen r.src (r.homes.map (·.1)) = true → answers (.trackedPacketArrival r.id) s fun u => u.mem = s.mem ∧
      ∃ q, u.findReq r.id = some q ∧ q.stage = .sent ∧ q.pieces = r.pieces ∧ q.homes.map (·.1) = r.homes.map (·.1)) ∧
    (s.streamOpen r.src (r.homes.map (·.1)) = false → exec (.trackedPacketArrival r.id) s = .next s)) ∧
  (∀ (s : State) (src home : Nat),
    let n := (s.die home).applied.get src 0
    (s.ackSent src home ≠ n → exec (.appliedAckSend home src) s = .next { s with acks := s.acks ++ [(src, home, n)] }) ∧
    (s.ackSent src home = n → exec (.appliedAckSend home src) s = .next s)) ∧
  ∀ (s : State) (src home n : Nat), s.acks.find? (fun a => a.1 = src && a.2.1 = home) = some (src, home, n) →
    answers (.appliedAckArrival src home) s fun u => u.acks = s.acks.erase (src, home, n) ∧ u.mem = s.mem ∧
      (u.die src).acked.get home 0 = (if seqGe n ((s.die src).acked.get home 0) then n else (s.die src).acked.get home 0) ∧
      (∀ c x, dieOf c = src → ∀ p ∈ (u.ctx c x).past, p.1 = home → seqGe n p.2 = false) ∧
      ∀ c x, dieOf c ≠ src → u.ctx c x = s.ctx c x

/-! ## Events of engines, streams and tasks -/

/-- R99, R132, R321, R322, R325, R326: the first command of an engine that can go on completes at its number: a copy with
its elements written and its destination descriptor updated, a feeder that has read everything, a transfer of no bytes, a
gather whose data has landed, a collective with a misaligned block poisoned, a matrix command whose results are due. -/
def Obligations.EngineCommandsComplete : Prop :=
  (∀ (s : State) (c ch n : Nat) (i : EngItem) (r : List EngItem) (dst src : BitVec 1024) (shift mode : Nat) (es : Int),
    let d := s.copyRun c ch i dst src shift mode (dCount src - i.pos) false
    (s.tl c (.ch ch)).queue = i :: r → i.core = c → s.before? c i.ctx i.after = true →
    i.cmd = .copy dst src (some n) shift mode es → s.sameTask c i.ctx i.task = true → s.descFirst c i.ctx n i.after = true →
    dCount src ≤ d.2.1.pos →
    answers (.engineCompletion c (.ch ch)) s fun u => u.mem = d.1.mem ∧
      (s.tl c (.ch ch)).completed (u.tl c (.ch ch)) i.num (!d.2.1.prog.declined.isEmpty) ∧
      (u.ctx c i.ctx).dAt n = (dUpdate ((s.ctx c i.ctx).dAt n) es shift d.2.1.prog.census d.2.1.prog.written).1) ∧
  (∀ (s : State) (c ch q : Nat) (i : EngItem) (r : List EngItem), (s.tl c (.ch ch)).queue = i :: r → i.core = c →
    s.before? c i.ctx i.after = true → i.cmd = .streamRd q none →
    ((s.strm c i.ctx q).total ≤ (s.strm c i.ctx q).next → answers (.engineCompletion c (.ch ch)) s fun u =>
      u.mem = s.mem ∧ (s.tl c (.ch ch)).completed (u.tl c (.ch ch)) i.num false)) ∧
  (∀ (s : State) (c p la off win pkg : Nat) (i : EngItem) (r : List EngItem), (s.tl c (.wp p)).queue = i :: r → i.core = c →
    s.before? c i.ctx i.after = true → (i.cmd = .put la off win pkg 0 false ∨ i.cmd = .get la off win pkg 0 false) →
    answers (.engineCompletion c (.wp p)) s fun u => u.mem = s.mem ∧ (s.tl c (.wp p)).completed (u.tl c (.wp p)) i.num false) ∧
  (∀ (s : State) (c req : Nat) (i : EngItem) (r : List EngItem), (s.tl c .grid).queue = i :: r → i.core = c →
    s.before? c i.ctx i.after = true → i.cmd = .landing req →
    (∀ p ∈ (s.ctx c i.ctx).pend, p.req ≠ req ∧ p.req ≠ req + 1) →
    answers (.engineCompletion c .grid) s fun u => u.mem = s.mem ∧ (s.tl c .grid).completed (u.tl c .grid) i.num false) ∧
  (∀ (s : State) (blk : Nat) (i : EngItem) (r : List EngItem), s.coll.queue = i :: r → s.before? i.core i.ctx i.after = true →
    i.cmd = .coll blk → blk % 32 ≠ 0 → s.asked (.engine i.core .coll) i.readTag = false →
    (let a : Acc := { agent := .engine i.core .coll, kind := .load, asid := i.asid }
     s.blocked a (parts blk 32 .raw) 0 [] = none ∧ s.readsNow a [(blk, 32)] = true) →
    answers (.engineCompletion 0 .coll) s fun u => u.mem = s.mem ∧ s.coll.completed u.coll i.num true) ∧
  ∀ (s : State) (c n : Nat) (m : MxCmd) (r : List MxCmd), mxReady (s.core c).cycle (s.core c).mx = some (m, r) → m.num = some n →
    answers (.engineCompletion c .mx) s fun u => (u.core c).mx = r ∧ u.mem = s.mem ∧
      (s.tl c .mx).issued = (u.tl c .mx).issued ∧ (n ≤ (u.tl c .mx).done ∨ n ∈ (u.tl c .mx).fin)

/-- R107, R113, R301, R303, R307, R322: a channel feeds the next element of its stream with the value its descriptor gives,
the eight weights of a VQ2 index or the fields of a period of its pattern, unless an earlier command of the channel has
still to write there; a CPYM reads all of its source and gives its stream the elements, those of a VQ2 source decoded, and
once they have landed issues its follow-on, a load of any kind or a run, to the matrix engine and keeps its number until
that completes. -/
def Obligations.StreamsFeedAndFollow : Prop :=
  (∀ (s : State) (c x q : Nat) (i : EngItem),
    let st := s.strm c x q
    let a := chanAcc c st.ch st.asid .copyRead
    let ps := plainParts st.feedParts
    let bs := ps.flatMap fun p => s.readParts a i.decl (cuts p.1 p.2)
    let gives (es : List Elem) : Prop := answers (.streamElementArrival c x q) s fun u => u.mem = s.mem ∧
      (u.strm c x q).buf = st.buf ++ es ∧ (u.strm c x q).next = st.next + es.length ∧ ∀ p, p ≠ q → u.strm c x p = s.strm c x p
    s.strmItem c x q = some i → st.hungry = true → s.before? c x i.after = true → s.heldBack c (.ch st.ch) i = false →
    s.asked a.agent i.readTag = false → s.blocked a (ps.flatMap fun p => parts p.1 p.2 .raw) 0 i.decl = none →
    s.readsNow a ps = true →
    (st.pat = none → dFmt st.desc ≠ 9 → gives [descValue st.desc st.next bs]) ∧
    (st.pat = none → dFmt st.desc = 9 → gives (vqElems st.table (gotNat (bs.take 2)) (gotNat (bs.drop 2)) (gotPoison bs))) ∧
    ∀ p, st.pat = some p → gives ((patCut p.fields (gotNat bs)).map fun v =>
      (satTo (fmtWidth (dFmt st.desc)) (fmtUnsigned (dFmt st.desc)) v, gotPoison bs))) ∧
  (∀ (s : State) (c ch q op ext : Nat) (i : EngItem) (r : List EngItem) (src : BitVec 1024),
    let st := s.strm c i.ctx q
    let a := chanAcc c ch i.asid .copyRead
    let ps := (List.range (dCount src)).flatMap (cpymParts src)
    let read (j : Nat) : List (Byte × Bool) := (cpymParts src j).flatMap fun p => s.readParts a i.decl (cuts p.1 p.2)
    let es := (List.range (dCount src)).flatMap fun j =>
      if dFmt src = 9 then vqElems st.table (gotNat ((read j).take 2)) (gotNat ((read j).drop 2)) (gotPoison (read j))
      else [descValue src j (read j)]
    (s.tl c (.ch ch)).queue = i :: r → i.core = c → s.before? c i.ctx i.after = true → i.cmd = .cpym q src op ext false →
    dCount src * (if dFmt src = 9 then 8 else 1) ≤ st.room → s.asked a.agent i.readTag = false →
    s.blocked a (ps.flatMap fun p => parts p.1 p.2 .raw) 0 i.decl = none → s.readsNow a ps = true →
    answers (.engineCompletion c (.ch ch)) s fun u => u.mem = s.mem ∧ (u.strm c i.ctx q).buf = st.buf ++ es ∧
      ∃ j ∈ (u.tl c (.ch ch)).queue, j.num = i.num ∧ j.cmd = .cpym q src op ext true) ∧
  ∀ (s : State) (c ch q op ext : Nat) (i : EngItem) (src : BitVec 1024) (t : Tri), s.landedCpym c ch = some i →
    i.cmd = .cpym q src op ext true → s.sameTask c i.ctx i.task = true →
    let fmt (q : Nat) : Nat := dFmt (s.strm c i.ctx q).desc
    let issues (kind : MxKind) (needs : List (Nat × Nat × Nat)) : Prop :=
      answers (.cpymFollowOn c ch) s fun u => u.mem = s.mem ∧ (u.tl c (.ch ch)).done = (s.tl c (.ch ch)).done ∧
        (∀ j ∈ (u.tl c (.ch ch)).queue, j.num ≠ i.num) ∧ ∃ m, (u.core c).mx = (s.core c).mx ++ [m] ∧ m.kind = kind ∧
          m.ctx = i.ctx ∧ m.chan = some (ch, i.num) ∧ m.needs = needs
    (∀ ks, loadKs false (fmt t.a) = some ks →
      (followOf op ext = some (.mldn t) → issues (.load t.d false ks false (fmt t.a)) [(t.a, 128 * ks, ks)]) ∧
      (followOf op ext = some (.mldw t) → issues (.load t.d false ks true (fmt t.a)) [(t.a, 128 * ks, ks)])) ∧
    (∀ ks, loadKs true (fmt t.a) = some ks → followOf op ext = some (.mlds t) →
      issues (.load t.d true ks false (fmt t.a)) [(t.a, 128 * ks, ks), (t.b, 64 * ks, ks / 2)]) ∧
    ∀ x k step, t.ext = some x → followOf op ext = some (.mrun t) →
      (let b := (s.core c).buf (x / 2 ^ 16 % 2); pairing b.fmt b.sparse (fmt t.a) = some (k, step)) →
      let rows := (x % 2 ^ 9 + 1) / step
      issues (.run t.d (x / 2 ^ 9 % 2 ^ 7) rows (x / 2 ^ 16 % 2) none (s.ctx c i.ctx).cpatSteps.toNat (s.ctx c i.ctx).cpatLen)
        [(t.a, rows * k, k)]

/-- R167 to R169, R327: SPAWN sends its target core an entry that carries the parent's address space, node and queue,
the start address, the argument address and four coordinates; the context waits until it is delivered. R49, R56, R158,
R164, R188, R330: the head of the run queue binds to the lowest idle context, whose registers stand as a task's start
gives them; a spawn enters its run queue after the add of -1 to COUNT and its spawner goes on; a helper starts its
oldest request. -/
def Obligations.TasksStart : Prop :=
  ((∀ (s : State) (c x : Nat) (e : Entry) (r : List Entry), (s.core c).bindable = some (x, e, r) → e.argLen = 0 →
     e.gang = none → e.spawned = false → e.coords.length ≤ 8 →
     answers (.taskBind c) s fun u =>
       let k := u.ctx c x
       (u.core c).runq = r ∧ (u.core c).dslots = e.dslots ∧ k.status = .ready ∧ k.pc = e.entry ∧ k.startAt = (u.core c).cycle + 16 ∧
         (s.core c).cycle ≤ (u.core c).cycle ∧ ((s.core c).allIdle = false → (u.core c).cycle = (s.core c).cycle) ∧
         (∃ t, k.task = some t ∧ t.asid = e.asid ∧ t.nodeId = e.nodeId ∧ t.ncc = e.ncc ∧ t.queue = e.queue ∧ t.ticket = e.ticket) ∧
         (∀ j < e.coords.length, (k.gAt (j + 1)).val = e.coords.getD j 0) ∧ (k.gAt 9).val = BitVec.ofNat 64 e.args ∧
         (k.gAt 10).val = e.g10 ∧ (k.gAt 11).val = e.nodeId ∧ (∀ n, 12 ≤ n → (k.gAt n).val = 0) ∧ k.kAt 0 = BitVec.allOnes 256 ∧
         (∀ n, (k.gAt n).full = true ∧ (k.vAt n).full = true ∧ (k.pAt n).full = true) ∧
         (∀ t < 8, bit e.accm t = true → (u.core c).acc.get t {} = { claim := some x }) ∧
         u.mem = s.mem ∧ (∀ y, y ≠ x → u.ctx c y = s.ctx c y) ∧ ∀ d, d ≠ c → u.core d = s.core d) ∧
   (∀ (s : State) (c : Nat), (s.core c).bindable = none → exec (.taskBind c) s = .next s) ∧
   (∀ (s s1 : State) (p : SpawnPkt) (old : Nat) (poison : Bool), s.spawns = [p] → s.spawnReady p = true → s.spawnParked p = false →
     s.addNow (.ctx p.src.1 p.src.2) 1 p.entry.asid p.entry.ncc (2 ^ 64 - 1) = .ready old poison s1 →
     answers .spawnDelivery s fun u => u.spawns = [] ∧ u.mem = s1.mem ∧
       (u.core p.core).runq = (s.core p.core).runq ++ [p.entry] ∧
       ((s.ctx p.src.1 p.src.2).status = .waiting .spawn → (u.ctx p.src.1 p.src.2).status = .ready)) ∧
   ∀ (s : State) (c : Nat) (st : Bool) (r : HelperReq) (rest : List HelperReq), (s.helper c st).starts = r :: rest →
     (((s.helper c st).running = false ∧ (s.helper c st).halted = false) → answers (.helperStart c st) s fun u =>
       let h := u.helper c st
       h.running = true ∧ h.pc = r.pc ∧ h.ctx = r.ctx ∧ h.asid = r.asid ∧ h.starts = rest ∧ h.x.get 10 0 = r.a0.setWidth 32 ∧
         h.x.get 11 0 = r.a1.setWidth 32 ∧ h.x.get 12 0 = r.a2.setWidth 32 ∧ h.x.get 13 0 = BitVec.ofNat 32 r.ctx ∧
         h.x.get 14 0 = r.nodeId.setWidth 32 ∧ h.x.get 1 0 = 0 ∧ u.helper c (!st) = s.helper c (!st) ∧ u.mem = s.mem) ∧
     (((s.helper c st).running = true ∨ (s.helper c st).halted = true) → exec (.helperStart c st) s = .next s)) ∧
  (∀ (t : Tri) (s : State) (c : Nat) (k : Task), s.grants t.pred [srcA t, srcB t, .v t.d true] [] [srcA t, srcB t, .v t.d true] →
     let a := (s.g t.a).val.toNat
     let b := (s.g t.b).val.toNat
     b % 4 = 0 → spawnTarget s.fc a = some c → s.cur.task = some k →
     answers (.spawn t) s fun u => u.cur.status = .waiting .spawn ∧ u.cur.keeps s.cur [] ∧ u.mem = s.mem ∧
       ∃ p, u.spawns = s.spawns ++ [p] ∧ p.core = c ∧ p.src = (s.fc, s.fx) ∧ p.entry.entry = b % 2 ^ 56 ∧ p.entry.args = a ∧
         p.entry.asid = k.asid ∧ p.entry.nodeId = k.nodeId ∧ p.entry.ncc = k.ncc ∧ p.entry.queue = k.queue ∧
         p.entry.spawned = true ∧ p.entry.gang = none ∧ p.entry.dslots = s.fcore.dslots ∧
         p.entry.coords = (List.range 4).map fun j => BitVec.ofNat 64 ((s.v t.d).val.toNat / 2 ^ (64 * j)))

/-! ## Events of windows, queues and records -/

/-- R82 to R84: a put or get for a window that is off, or that reaches past it, is rejected and answered poisoned; an
accepted put becomes a write to the window's address space, an applied one advances COUNT and is acknowledged, an accepted
get brings its bytes to its put context, and an acknowledgement completes the number of its put. That a put of any length is
one write, and that a get is answered whole, is the model's reading (log entry 34). -/
def Obligations.WindowTransfers : Prop :=
  (∀ (s : State) (p : WinPacket),
    let w := s.window p.win
    let rejected (i : Instr) : Prop := answers i s fun u => u.mem = s.mem ∧
      u.window p.win = { w with rejects := min (w.rejects + 1) (2 ^ 32 - 1) } ∧
      (p.srcPkg = s.fabric.coords → u.agenda = s.agenda ++ [.event (.putAckArrival p.srcCore p.srcWp p.num true)])
    ((w.v = false ∨ w.puten = false ∨ w.size * 2 ^ 16 < p.offset + p.len) → rejected (.windowPutArrival p)) ∧
    ((w.v = false ∨ w.geten = false ∨ w.size * 2 ^ 16 < p.offset + p.len) → (∀ f ∈ s.puts, f.is p = false) →
      rejected (.windowGetArrival p)) ∧
    (w.v = true → w.puten = true → p.offset + p.len ≤ w.size * 2 ^ 16 → answers (.windowPutArrival p) s fun u =>
      u.mem = s.mem ∧ u.window p.win = w ∧ u.nextId = s.nextId + 1 ∧
        u.puts = s.puts ++ [{ id := s.nextId, p, get := false, done := false, bad := false }] ∧
        ∃ r, u.net = s.net ++ [r] ∧ r.id = s.nextId ∧ r.agent = .window ∧ r.kind = .put ∧ r.asid = w.asid ∧
          r.pieces = rawRuns (w.base + p.offset) p.data ∧
          (s.streamOpen 0 (homesOf .window r.pieces) = true → r.stage = if s.homeTakes r then .home else .sent) ∧
          (s.streamOpen 0 (homesOf .window r.pieces) = false → r.stage = .flush)) ∧
    (w.v = true → w.geten = true → p.offset + p.len ≤ w.size * 2 ^ 16 → (∀ f ∈ s.puts, f.is p = false) →
      p.srcPkg = s.fabric.coords →
      let a : Acc := { agent := .window, kind := .get, asid := w.asid }
      s.asked .window s.nextId = false → s.blocked a (parts (w.base + p.offset) p.len .raw) 0 [] = none →
      ({ s with nextId := s.nextId + 1 } : State).readsNow a [(w.base + p.offset, p.len)] = true →
      answers (.windowGetArrival p) s fun u => u.mem = s.mem ∧ ∀ i ∈ (s.tl p.srcCore (.wp p.srcWp)).queue, i.num = p.num →
        ∀ la off win pkg len, i.cmd = .get la off win pkg len true →
          { i with cmd := .got la (s.readParts a [] (cuts (w.base + p.offset) p.len)) } ∈
            (u.tl p.srcCore (.wp p.srcWp)).queue)) ∧
  (∀ (s : State) (n : Nat) (f : PutFlight), s.puts.find? (fun f => f.id = n && f.done && !f.get) = some f →
    answers (.windowPutApplied n) s fun u => u.mem = s.mem ∧ u.puts = s.puts.filter (fun g => g.id ≠ n) ∧
      (u.window f.p.win).count = ((s.window f.p.win).count + 1) % 2 ^ 64 ∧
      (f.p.srcPkg = s.fabric.coords → u.agenda = s.agenda ++ [.event (.putAckArrival f.p.srcCore f.p.srcWp f.p.num f.bad)])) ∧
  ∀ (s : State) (core wp num : Nat) (poison : Bool), answers (.putAckArrival core wp num poison) s fun u => u.mem = s.mem ∧
    (s.tl core (.wp wp)).completed (u.tl core (.wp wp)) num poison

/-- R182 to R188, R431 to R433: die 0 takes a kick into PEND, looks again at what PEND names, and then selects: an eligible
head slot is what the next log entry is made of, a rejected one is passed and faults its queue with its WHY, one with an unmet dependence is
set aside with DEPSAT, a waiting offline map becomes an entry of KIND 1. The entry, its head word and each die's distribution
follow operation by operation: NODE, then for each member BIND, the bind, the ticket and the release, then the node table, the
copy of the cursors, DONE and the progress word; a bind waits while the member's core takes none. That one transition is one
operation, and where the log and the state block lie, is the model's reading (log entry 46). -/
def Obligations.NodesAreSelectedAndDistributed : Prop :=
  (∀ s : State, s.distIdle 0 = true →
    (∀ q, (s.die 0).kicks.getLsbD q = true → (∀ n < q, (s.die 0).kicks.getLsbD n = false) → answers .nodeSelection s fun u =>
      (u.die 0).kicks = (s.die 0).kicks &&& ~~~(1#64 <<< q) ∧ u.pend 0 = s.pend 0 ||| (1#64 <<< q) ∧ u.queues = s.queues) ∧
    ((s.die 0).kicks = 0 → s.pend 0 ≠ 0 → answers .nodeSelection s fun u => u.pend 0 = 0 ∧ u.logSeq = s.logSeq ∧
      ∀ n, u.queue n = if (s.pend 0).getLsbD n then { s.queue n with stale := false } else s.queue n)) ∧
  (∀ (s : State) (q : Nat), q < 64 → s.maySelect = true → (s.die 0).kicks = 0 → s.pend 0 = 0 → s.mapPend = [] →
    (∀ n < 64, n ≠ q → s.look n = .nothing) →
    let k := s.queue q
    let slot := k.head.toNat
    let faults (t u : State) (w : Nat) : Prop := u.mem = t.mem ∧ u.logSeq = t.logSeq ∧
      u.queue q = { t.queue q with state := 3, why := w } ∧
      (u.port (t.queue q).owner).recs = (t.port (t.queue q).owner).recs ++
        [{ typ := 4, die := 0, queue := q, words := [BitVec.ofNat 64 slot, BitVec.ofNat 64 w] }]
    (∀ r, s.look q = .eligible r → answers .nodeSelection s fun u =>
      let e : LogEntry := { seq := s.logSeq + 1, kind := 0, queue := q, slot, record := r, map := 0 }
      (u.die 0).todo = [.jwrNode e.seq q k.prio slot, .log e, .head e.seq q slot, .members e.seq q k.prio] ∧
        u.mem = s.mem ∧ u.queues = s.queues ∧ u.logSeq = s.logSeq) ∧
    (∀ w, s.look q = .bad w true → answers .nodeSelection s fun u =>
      let past := (s.forgetLoads 0).onQueue q fun k => { k with head := k.head + 1, depsat := 0, stale := false }
      faults (past.storeLater 0 k.asid k.heada (leBytes 4 (k.head + 1).toNat)) u w) ∧
    (∀ w, s.look q = .bad w false → answers .nodeSelection s fun u => faults s u w) ∧
    (∀ sat, s.look q = .unmet sat → answers .nodeSelection s fun u => u.mem = s.mem ∧ u.logSeq = s.logSeq ∧
      u.queue q = { k with stale := true, depsat := sat } ∧ u.ports = s.ports)) ∧
  (∀ (s : State) (m : BitVec 640) (r : List (BitVec 640)), s.maySelect = true → (s.die 0).kicks = 0 → s.pend 0 = 0 →
    s.mapPend = m :: r →
    answers .nodeSelection s fun u => u.mapPend = r ∧ u.logSeq = s.logSeq + 1 ∧ u.queues = s.queues ∧
      u.bytes (logEntryKey u.logSeq) 256 =
        ({ seq := u.logSeq, kind := 1, queue := 0, slot := 0, record := [], map := m } : LogEntry).bytes) ∧
  (∀ (s : State) (d : Nat), s.distLive d = true → (s.die d).todo = [] → ∀ e, s.nextEntry d = some e → e.kind = 0 →
    answers (.logEntryDistribution d) s fun u => u.mem = s.mem ∧ u.cores = s.cores ∧
      (u.die d).todo = [.jwrNode e.seq e.queue (s.queue e.queue).prio e.slot, .members e.seq e.queue (s.queue e.queue).prio]) ∧
  (∀ (s : State) (d : Nat) (rest : List Todo), s.distLive d = true →
    let does (t : Todo) (next : List Todo) (effect : State → Prop) : Prop := (s.die d).todo = t :: rest →
      answers (.logEntryDistribution d) s fun u => effect u ∧ (u.die d).todo = next ++ rest
    (∀ seq q p slot, does (.jwrNode seq q p slot) [] fun u => s.journals u d 1
      (leBytes 4 seq ++ [BitVec.ofNat 8 q, BitVec.ofNat 8 p, 0, 0] ++ leBytes 4 slot)) ∧
    (∀ e, does (.log e) [] fun u => u.logSeq = e.seq ∧ u.bytes (logEntryKey e.seq) 256 = e.bytes ∧ u.queues = s.queues) ∧
    (∀ seq q slot, (s.queue q).lastseq ≠ seq → does (.head seq q slot) [] fun u =>
      let h := BitVec.ofNat 32 (slot + 1)
      let t := s.onQueue q fun k => { k with head := h, depsat := 0, stale := false, selcnt := k.selcnt + 1, lastseq := seq }
      u = (t.storeLater 0 (s.queue q).asid (s.queue q).heada (leBytes 4 h.toNat)).onDie d fun k => { k with todo := rest }) ∧
    (∀ seq q p, s.jfield d ((s.die d).jtail - 1) 4 1 = 1 → does (.members seq q p)
      ((s.membersOf d seq).map (fun m => .jwrBind seq m.1 m.2.1 m.2.2) ++
        [.table seq (s.membersOf d seq).length, .copy seq q p, .jwrDone seq, .progress seq])
      fun u => u.mem = s.mem ∧ u.cores = s.cores) ∧
    (∀ seq g m c, does (.jwrBind seq g m c) [.bind seq g m c, .ticket seq (s.nextTicket c), .rel (s.nextTicket c)] fun u =>
      s.journals u d 2 (leBytes 8 (s.nextTicket c) ++ leBytes 8 (Config.bindRecord d seq (g * (s.recordOf seq).m + m)))) ∧
    (∀ seq g m c e, s.logEntry seq = some e → dieOf c = d → (s.core c).takes = true → does (.bind seq g m c) [] fun u =>
      (u.core c).runq = (s.core c).runq ++ [Launch.entry e.record seq e.queue g m (s.nextTicket c)] ∧
        (u.die d).bcnt.get (c % 20) 0 = s.nextTicket c % 2 ^ 32 ∧ u.mem = s.mem) ∧
    (∀ seq g m c, (s.core c).takes = false → (s.die d).todo = .bind seq g m c :: rest →
      exec (.logEntryDistribution d) s = .next s) ∧
    (∀ seq t, does (.ticket seq t) [] fun u => u.bytes (ticketKey d t) 4 = leBytes 4 seq ∧ u.cores = s.cores) ∧
    (∀ t e, (s.die d).issued t = true → (s.core (20 * d + t / 2 ^ 32)).runq = [e] → e.ticket = t → e.spawned = false →
      e.released = false →
      does (.rel t) [] fun u => (u.core (20 * d + t / 2 ^ 32)).runq = [{ e with released := true }] ∧ u.mem = s.mem) ∧
    (∀ seq n e, s.logEntry seq = some e → does (.table seq n) [] fun u =>
      let r : Launch := e.record
      u.bytes (nodeKey d seq) 32 = ({ seq, ncc := r.ncc, nccEnd := r.w 8, queue := e.queue, cev := r.cev, asid := r.asid
                                      nodeId := BitVec.ofNat 64 (r.w 6), mem := n, ended := 0 } : Share).bytes) ∧
    (∀ seq q p, does (.copy seq q p) [] fun u =>
      let k := ((s.recordOf seq).place (s.cursAt d (seq - 1))).2
      u.bytes (copyKey d seq) 256 = ({ k with rr := k.rr.set p ((q + 1) % 64) } : Cursors).bytes) ∧
    (∀ seq, does (.jwrDone seq) [] fun u => s.journals u d 3 (leBytes 4 seq)) ∧
    (∀ seq, s.logSeq ≠ 0 → s.progressOf d < seq → seq < 2 ^ 32 → does (.progress seq)
      (if (s.share d seq).mem = 0 then
        [.intent { addr := (s.share d seq).ncc, seq, ended := 0, asid := (s.share d seq).asid, target := 0 }] else [])
      fun u => u.progressOf d = seq ∧ u.cores = s.cores)) ∧
  ∀ (s : State) (d : Nat) (e : LogEntry), s.distIdle d = true → s.nextEntry d = some e → e.kind = 1 →
    answers (.offlineMapApply d) s fun u =>
      ∃ t : State, u.mem = (t.writeProgress d e.seq).mem ∧
        (t.progressOf d = s.progressOf d → s.logSeq < 2 ^ 32 → u.progressOf d = s.progressOf d + 1) ∧
        t.bytes (copyKey d e.seq) 256 = ({ s.cursAt d (e.seq - 1) with offline := e.map } : Cursors).bytes

/-- R188, R189, R344, R345, R393, R431, R433: a task-end record goes to the journal as an END, counts a member of its node and
leads to the adds to FAILS and COUNT, each announced by an INTENT and closed by an ADD, and the add that completed a node posts
its records; a record enters the event queue while there is room, and a port record the host's ring, or waits in the event
queue of its die; at a node boundary a suspend saves and stops its queue and a destroy removes it. The model's own: FAILS is
read after the add (log entry 19), EVLOST counts a record once (42), a suspend precedes a destroy (43), the records of a node
whose queue is gone go to port A (54), a later suspend of a stopped queue ends with its status (71). -/
def Obligations.EndsRecordsAndSuspends : Prop :=
  (∀ (s : State) (d : Nat) (r : EvRec) (l : List EvRec), s.distLive d = true → (s.die d).todo = [] →
    (s.die d).untaken = r :: l → r.kind = 1 → s.endHeld d r = false →
    answers (.taskEndRecord d) s fun u => u.die d = { (s.die d).take with todo := [.taskEnd r] } ∧
      u.mem = s.mem ∧ u.cores = s.cores) ∧
  (∀ (s : State) (d : Nat) (rest : List Todo), s.distLive d = true →
    let does (t : Todo) (next : List Todo) (effect : State → Prop) : Prop := (s.die d).todo = t :: rest →
      answers (.taskEndRecord d) s fun u => effect u ∧ (u.die d).todo = next ++ rest
    (∀ r, s.ended d (r.words.getD 0 0) = true → does (.taskEnd r) [] fun u => u.mem = s.mem) ∧
    (∀ r, s.ended d (r.words.getD 0 0) = false → bit (r.w 0) 63 = false →
      let seq := s.ticketSeq d (r.w 0)
      let h := s.share d seq
      let failed := bit (r.w 2) 0
      does (.taskEnd r) (if failed then
          [.intent { addr := h.ncc + 8, seq, ended := h.ended + 1, asid := h.asid, target := 1 }] else [.ended seq (h.ended + 1)])
        fun u => s.journals u d 5
          (leBytes 8 (r.w 0) ++ leBytes 4 seq ++ leBytes 2 (h.ended + 1) ++ [BitVec.ofNat 8 failed.toNat])) ∧
    (∀ r h, s.ended d (r.words.getD 0 0) = false → bit (r.w 0) 63 = true →
      s.shareOf d (r.w 3) (some (r.words.getD 1 0)) = some h →
      let failed := bit (r.w 2) 0
      does (.taskEnd r) [.intent { addr := if failed then h.ncc + 8 else h.ncc, seq := h.seq, ended := 0, asid := h.asid
                                   target := if failed then 1 else 2 }]
        fun u => s.journals u d 5 (leBytes 8 (r.w 0) ++ leBytes 4 0 ++ leBytes 2 0 ++
          [BitVec.ofNat 8 (failed.toNat + 2), 0] ++ leBytes 8 (r.w 3))) ∧
    (∀ seq n, let h := s.share d seq
      h.ended < n → does (.ended seq n)
        (if n = h.mem then [.intent { addr := h.ncc, seq, ended := n, asid := h.asid, target := 0 }] else [])
        fun u => u.bytes (nodeKey d seq) 32 = ({ h with ended := n } : Share).bytes ∧ u.cores = s.cores) ∧
    (∀ a, does (.intent a) [.amo a] fun u => (if (u.die d).role then (u.die d).relf else (u.die d).prim).asid = a.asid ∧ s.journals u d 6
      (leBytes 8 a.addr ++ leBytes 4 a.seq ++ leBytes 2 a.ended ++ [BitVec.ofNat 8 a.asid, BitVec.ofNat 8 a.target])) ∧
    (∀ (a : AddJob) (old : Nat) (t : State),
      s.addNow (.dist d) (readTag (distAcc d a.asid .atomic) a.addr 8) a.asid a.addr 1 = .ready old false t →
      does (.amo a) [.jwrAdd a old false] fun u => u.mem = t.mem ∧ (u.die d).amoAddr = BitVec.ofNat 64 a.addr ∧
        (u.die d).amoOld = BitVec.ofNat 64 old) ∧
    (∀ (a : AddJob) (old : Nat),
      does (.jwrAdd a old false)
        (if a.target = 1 then
          if a.ended = 0 then [.intent { a with addr := a.addr - 8, target := 2 }] else [.ended a.seq a.ended]
        else if (old + 1) % 2 ^ 64 = (s.share d a.seq).nccEnd then [.post a.seq] else [])
        fun u => s.journals u d 4
          (leBytes 8 a.addr ++ leBytes 8 old ++ leBytes 4 a.seq ++ leBytes 2 a.ended ++ [BitVec.ofNat 8 a.target])) ∧
    ∀ (seq : Nat) (bs : List (Byte × Bool)), let h := s.share d seq
      s.readNow (distAcc d h.asid .load) (h.ncc + 8) 8 = .ready bs →
      let fails := gotNat bs
      let owner := (s.queue h.queue).owner
      let posted (u : State) (typ : Nat) (ws : List Word) : Prop := (u.port owner).recs = (s.port owner).recs ++
        [{ typ, die := d, queue := h.queue, words := [h.nodeId, BitVec.ofNat 64 h.ncc] ++ ws }]
      (does (.post seq) [.fails seq] fun u => u.mem = s.mem ∧ (u.die 0).evWait = (s.die 0).evWait ++
        [{ kind := 2, words := [BitVec.ofNat 64 h.ncc, h.nodeId, BitVec.ofNat 64 (h.queue + h.seq * 2 ^ 32), BitVec.ofNat 64 fails] }]) ∧
      (does (.fails seq) [] fun u => u.mem = s.mem ∧ (fails ≠ 0 → posted u 3 [BitVec.ofNat 64 fails]) ∧
        (fails = 0 → h.cev = true → posted u 2 []) ∧ (fails = 0 → h.cev = false → u.ports = s.ports))) ∧
  (∀ (s : State) (d : Nat) (r : EvRec) (l : List EvRec), (s.die d).evWait = r :: l →
    (s.evLoad d < 4096 → answers (.eventRecordPost d) s fun u => (u.die d).evq = (s.die d).evq ++ [r] ∧
      (u.die d).evWait = l ∧ u.mem = s.mem ∧ u.cores = s.cores ∧ (r.kind = 2 → ∀ q, (u.queue q).stale = false) ∧
      (r.kind ≠ 2 → u.queues = s.queues)) ∧
    (4096 ≤ s.evLoad d → exec (.eventRecordPost d) s = .next s)) ∧
  (∀ (s : State) (p : Nat) (r : PortRec) (l : List PortRec),
    let k := s.port p
    let off := k.linkLost = true ∨ k.evbase = 0
    let full := 2 ^ k.evcap ≤ (k.evtail - k.evhead).toNat
    let key := hostKey (k.evbase + 64 * (k.evtail.toNat % 2 ^ k.evcap))
    k.recs = r :: l →
    (¬ off → ¬ full → answers (.portRecordDelivery p) s fun u =>
      u.port p = { k with recs := l, evtail := k.evtail + 1, msix := k.msix + 1 } ∧
        ∀ a, u.byte a = if key ≤ a ∧ a < key + r.bytes.length then r.bytes.getD (a - key) 0 else s.byte a) ∧
    (off ∨ full → (∀ (l1 l2 : List PortRec) (q : PortRec), k.recs = l1 ++ q :: l2 →
        (∀ x ∈ l1, x.held = true ∨ 4096 ≤ s.evLoad x.die) → q.held = false → s.evLoad q.die < 4096 →
      answers (.portRecordDelivery p) s fun u => u.mem = s.mem ∧ u.port p = { k with
        recs := l1 ++ { q with held := true } :: l2
        evlost := if k.linkLost = true ∨ k.evbase = 0 then k.evlost else min (k.evlost + 1) (2 ^ 32 - 1) }) ∧
      ((∀ x ∈ k.recs, x.held = true ∨ 4096 ≤ s.evLoad x.die) → exec (.portRecordDelivery p) s = .next s))) ∧
  ∀ (s : State) (q : Nat), s.boundary = true → s.distRuns 0 = true → (s.queue q).v = true →
    let ends (u : State) (p stat : Nat) : Prop := (u.port p).busy = false ∧ (u.port p).stat = stat ∧ (u.port p).code = 0x12 ∧
      (u.port p).doneN = ((s.port p).doneN + 1) % 2 ^ 32
    (∀ p addr r, (s.queue q).saves = (p, addr) :: r →
      ((s.queue q).state ≠ 1 → answers (.queueSuspendBoundary q) s fun u => u.mem = s.mem ∧ ends u p 7 ∧
        u.queue q = { s.queue q with saves := r }) ∧
      (∀ x l t, (s.queue q).state = 1 →
        s.storeNow 0 (s.queue q).asid addr (wordBytes (s.saveWords q)) = .got x l t →
        answers (.queueSuspendBoundary q) s fun u => u.mem = t.mem ∧ ends u p 0 ∧
          u.queue q = { s.queue q with state := 2, saves := r, saved := 1 })) ∧
    ((s.queue q).saves = [] → (s.queue q).dying = true → answers (.queueSuspendBoundary q) s fun u => u.mem = s.mem ∧
      u.queue q = {} ∧
      ∀ p < 2, ∀ c, (s.port p).running = some (0x11, c) → c.queue = q → (u.port p).busy = false ∧ (u.port p).code = 0x11)

/-! ## Events of checkpoints, the fabric, power and faults -/

/-- R64, R363 to R366, R369 to R377: a scan step withholds binds from the core it picks (in a reduced cluster it asks
for the offline map first and scans once its die has applied one), an emptied core moves and its copy makes it the relief
core's, with held accesses in the order they came, a passed scan clears DIRTY, a failed one retires the core; a quiet package is
quiesced, a capture becomes the pending generation, a rollback makes the generation after the committed one current, a rebuild
and the recomputation of parity end. The model's own: RELIEF reads 7 during and after a scan and how a reduced cluster asks for
its maps (log entry 37), what a failed capture leaves, what a rollback restores, and that rebuild goes by events (38). -/
def Obligations.RotationAndCheckpoints : Prop :=
  (∀ (s : State) (cl p k : Nat), (s.lpmap cl).step = none → s.nextScan cl = some (p, k) → answers (.rotationStep cl) s fun u =>
    u.lpmap cl = { s.lpmap cl with step := some (p, k), taken := false } ∧ u.mem = s.mem ∧
      ((s.lpmap cl).reduced = false → (u.core (coreOf cl k)).withheld = true ∧ u.mapPend = s.mapPend) ∧
      ((s.lpmap cl).reduced = true → u.cores = s.cores ∧
        ∃ m, u.mapPend = s.mapPend ++ [m] ∧ (coreOf cl k < 640 → m.getLsbD (coreOf cl k) = true))) ∧
  (∀ (s : State) (cl p k : Nat), (s.lpmap cl).step = some (p, k) →
    let c := coreOf cl k
    (((s.core c).drained = true ∧ (s.core c).moving = false ∧ (s.scanOf cl p).scanning = false ∧ (s.lpmap cl).reduced = false ∧
        (s.lpmap cl).l.getD k 0 = p) → exec (.reliefMove cl) s = .next (s.onCore c Core.moved)) ∧
    (((s.core c).drained = true ∧ (s.core c).moving = false ∧ (s.scanOf cl p).scanning = false ∧ (s.lpmap cl).reduced = true) →
      ((s.lpmap cl).taken = false → exec (.reliefMove cl) s = .next s) ∧
      ((s.lpmap cl).taken = true → answers (.reliefMove cl) s fun u =>
        u.cores = s.cores ∧ (u.scanOf cl p).scanning = true ∧ u.lpmap cl = s.lpmap cl ∧ u.mem = s.mem)) ∧
    ((s.core c).moving = true → answers (.reliefCopyDone cl) s fun u =>
      u.lpmap cl = { s.lpmap cl with l := (s.lpmap cl).l.set k (s.lpmap cl).relief, relief := 7 } ∧ (u.core c).moving = false ∧
        (u.core c).withheld = false ∧ u.scanOf cl p = { s.scanOf cl p with scanning := true } ∧ u.mem = s.mem ∧
        u.net = s.net.map fun r => { r with cyc := 0 }) ∧
    ((s.scanOf cl p).scanning = true → (s.lpmap cl).reduced = false → answers (.scanPass cl) s fun u =>
      u.scanOf cl p = { s.scanOf cl p with pass := min ((s.scanOf cl p).pass + 1) (2 ^ 24 - 1), dirty := false, scanning := false } ∧
        u.lpmap cl = { s.lpmap cl with relief := p, step := none } ∧ u.mem = s.mem) ∧
    ((s.scanOf cl p).scanning = true → (s.lpmap cl).reduced = true → answers (.scanPass cl) s fun u =>
      (u.scanOf cl p).dirty = false ∧ u.lpmap cl = { s.lpmap cl with step := none, taken := false } ∧ (u.core c).withheld = false ∧
        ∃ m, u.mapPend = s.mapPend ++ [m] ∧ m.getLsbD c = false) ∧
    ((s.scanOf cl p).scanning = true → answers (.scanFail cl) s fun u =>
      u.scanOf cl p = { s.scanOf cl p with retired := true, scanning := false } ∧ (u.lpmap cl).reduced = true ∧
        (u.lpmap cl).relief = 7 ∧ (u.lpmap cl).step = none ∧ u.ck.rbreq = true ∧ u.ck.ready = false ∧
        s.tellsBoth u 11 (cl / 5) [BitVec.ofNat 64 (cl % 5 + p * 8 + k * 2 ^ 8),
          BitVec.ofNat 64 (s.ck.pending + s.ck.cur * 2 ^ 32), BitVec.ofNat 64 (s.scanOf cl p).pass])) ∧
  (∀ s : State, (s.quietNow = true → answers .quiesceReached s fun u => u.ck = { s.ck with phase := 2 } ∧ u.mem = s.mem ∧
      s.tellsBoth u 9 0 [BitVec.ofNat 64 s.ck.cur, BitVec.ofNat 64 s.logSeq, BitVec.ofNat 64 s.ck.committed]) ∧
    (s.quietNow = false → exec .quiesceReached s = .next s)) ∧
  (∀ s : State, s.ck.phase = 3 →
    (s.ck.capFailed = none → answers .captureDone s fun u => u.ck.phase = 0 ∧ u.ck.cur = s.ck.cur + 1 ∧ u.ck.pending = s.ck.cur ∧
      u.ck.pslot = (if s.ck.committed = 0 then 0 else 1 - s.ck.cslot) ∧ u.ck.committed = s.ck.committed ∧ u.mem = s.mem) ∧
    (∀ p, s.ck.capFailed = some p → answers .captureDone s fun u => u.ck.phase = 0 ∧ u.ck.cur = s.ck.cur + 1 ∧
      u.ck.pending = s.ck.pending ∧ u.mem = s.mem)) ∧
  (∀ s : State, s.ck.restoring = true → answers .rollbackRestoreDone s fun u => u.ck.phase = 0 ∧ u.ck.restoring = false ∧
    u.ck.cur = s.ck.committed + 1 ∧ u.ck.committed = s.ck.committed ∧ u.ck.pending = 0 ∧ u.ck.rbreq = false ∧ u.barriers = [] ∧
    u.queues = (s.saved.get s.ck.cslot {}).queues.map (fun p => (p.1, p.2.restore (s.queue p.1))) ∧ u.logSeq = (s.saved.get s.ck.cslot {}).seq) ∧
  (∀ s : State, s.ck.rebuilding = true → answers .rebuildDone s fun u => u.ck.rebuilding = false ∧ u.ck.parityDue = true ∧
    u.ck.pending = 0 ∧ u.ck.cur = u.ck.committed + 1) ∧
  ∀ s : State, s.ck.parityDue = true → answers .parityRecomputed s fun u => u.ck = { s.ck with parityDue := false } ∧
    (∀ a, (a < s.slotKey s.ck.cslot + 1536 * gib ∨ s.slotKey s.ck.cslot + 1760 * gib - 2 ^ 16 ≤ a) → u.byte a = s.byte a)

/-- R379 to R390: a flit whose eight resends fail in a row, a lost lock or heartbeat kill a link and post TYPE 13; a
switch counts and drops a faulty packet, discards one of another daymark and passes one for this package on; a numbered
packet is accepted once; acknowledgements carry CUM and free copies; the keeper folds deaths, waits for every
confirmation and orders the switch; the staged daymark becomes current with TYPE 14; a combining entry leaves at its
timeout; a bridge link that dies is reported lost for both ports (R395). The model's own: the ninth failure in a row is the
eighth resend that fails, and what a standby keeper that takes over knows (log entry 41); a death reported by
`keeperLinkReport` names its package in `face / 8` (42); what may combine (23). -/
def Obligations.FabricEvents : Prop :=
  (∀ (s : State) (f l : Nat), (s.fabric.link f l).dead = false → Config.isBridge s.mgmt.image f l = false →
    (∀ ok, answers (.linkFlit f l ok) s fun u => u.mem = s.mem ∧
      u.fabric.link f l = { s.fabric.link f l with resends := if ok then 0 else (s.fabric.link f l).resends + 1 }) ∧
    let dies (i : Instr) : Prop := answers i s fun u => (u.fabric.link f l).dead = true ∧ u.mem = s.mem ∧
      ∀ n < 2, ∃ r, (u.port n).recs = (s.port n).recs ++ { typ := 13, die := 0, queue := 0, words := [BitVec.ofNat 64 (f + l * 2 ^ 4)] } :: r
    dies (.linkLockLoss f l) ∧ dies (.heartbeatTimeout f l) ∧ (9 ≤ (s.fabric.link f l).resends → dies (.linkResendLimit f l)) ∧
      ((s.fabric.link f l).resends < 9 → exec (.linkResendLimit f l) s = .next s)) ∧
  (∀ (s : State) (f l : Nat), (s.fabric.link f l).dead = false → Config.isBridge s.mgmt.image f l = true →
    ∀ i ∈ [Instr.linkLockLoss f l, .heartbeatTimeout f l], answers i s fun u => (u.fabric.link f l).dead = true ∧ u.mem = s.mem ∧
      (u.port 0).linkLost = true ∧ (u.port 1).linkLost = true ∧ u.fabric.out = s.fabric.out ∧
      ∀ f' l', f' < 6 → l' < 16 → linkNo f' l' ≠ linkNo f l → Config.isBridge s.mgmt.image f' l' = true →
        (s.fabric.link f' l').dead = false → u.net = s.net ∧ u.parked = s.parked ∧ ∀ n, (u.port n).apq = (s.port n).apq) ∧
  (∀ (s : State) (p : Packet), s.fabric.staged = none → s.fabric.out = [p] →
    ((5 ≤ p.cls ∨ p.mbz ≠ 0) → answers (.switchForward p) s fun u => u.agenda = s.agenda ∧
      u.fabric = { s.fabric with out := [], errors := s.fabric.errors + 1 }) ∧ (p.cls < 5 → p.mbz = 0 →
    (p.daymark ≠ s.fabric.daymark → answers (.switchForward p) s fun u => u.fabric = { s.fabric with out := [] } ∧
      u.agenda = s.agenda) ∧
    (p.daymark = s.fabric.daymark → p.cmb = false → p.dst = s.fabric.coords → answers (.switchForward p) s fun u =>
      u.fabric = { s.fabric with out := [] } ∧ u.agenda = s.agenda ++ [.event (.fabricPacketArrival p)]))) ∧
  (∀ (s : State) (p : Packet) (w : WinPacket), p.body = .put w → p.cls = 0 → p.also = [] →
    let r := s.recvOf p.src p.sdie
    let n := (p.eseq + 2 ^ 32 - r.cum % 2 ^ 32) % 2 ^ 32
    ((n = 0 ∨ 2 ^ 31 ≤ n ∨ p.eseq ∈ r.got) → answers (.fabricPacketArrival p) s fun u => u.agenda = s.agenda ∧
      u.recvOf p.src p.sdie = { r with owed := true }) ∧
    (0 < n → n ≤ 1024 → p.eseq ∉ r.got → answers (.fabricPacketArrival p) s fun u =>
      u.agenda = s.agenda ++ [.event (.windowPutArrival w)] ∧ (u.recvOf p.src p.sdie).owed = true ∧
        (n = 1 → r.got = [] → p.eseq < 2 ^ 32 → u.recvOf p.src p.sdie = { cum := p.eseq, got := [], owed := true }))) ∧
  (∀ (s : State) (src sdie : Nat), answers (.e2eAckSend src sdie) s fun u => (u.recvOf src sdie).owed = false ∧
    ∃ p, u.fabric.out = s.fabric.out ++ [p] ∧ p.cls = 2 ∧ p.dst = src ∧
      p.body = .e2eAck (s.recvOf src sdie).cum (s.recvOf src sdie).got) ∧
  (∀ (s : State) (die dst cum : Nat) (got : List Nat), s.fabric.wait = [] →
    let st := (s.die die).send.get dst {}
    seqGe cum st.acked = true → seqGe st.last cum = true → answers (.e2eAckArrival die dst cum got) s fun u =>
      ((u.die die).send.get dst {}).acked = cum ∧ ∀ p ∈ ((u.die die).send.get dst {}).retry, p ∈ st.retry ∧ seqGe cum p.eseq = false) ∧
  (∀ (s : State) (die dst : Nat),
    let again := ((s.die die).send.get dst {}).retry.map fun p => { p with daymark := s.fabric.daymark }
    exec (.replayTimeout die dst) s = .next { s with fabric := { s.fabric with out := s.fabric.out ++ again } }) ∧
  (∀ (s : State) (d : Nat) (table : List Nat), (∀ i ∈ s.coll.queue, ∀ r, i.cmd ≠ .collRun r) → s.fabric.staged = some (d, table) →
    (s.fabric.order ≠ some d → answers (.daymarkSwitch d) s fun u => u.fabric.daymark = d ∧ u.fabric.table = table ∧
      u.fabric.staged = none ∧ u.fabric.combine = [] ∧ s.tellsBoth u 14 0 [BitVec.ofNat 64 d]) ∧
    (s.fabric.order = some d → s.fabric.keeperNext = [] → answers (.daymarkSwitch d) s fun u => u.fabric.daymark = d ∧
      u.fabric.staged = none ∧ u.fabric.order = none ∧ u.fabric.keeperBusy = false ∧ u.fabric.keeperFrom = d)) ∧
  (∀ (s : State) (d : Nat) (table : List Nat), answers (.daymarkStage d table) s fun u => u.fabric.staged = some (d, table) ∧
    u.fabric.daymark = s.fabric.daymark ∧
    ∃ p, u.fabric.out = s.fabric.out ++ [p] ∧ p.cls = 4 ∧ p.dst = s.keeper ∧ p.body = .confirm s.fabric.coords) ∧
  (∀ (s : State) (f l : Nat), (s.fabric.keeperSelf = false → exec (.keeperLinkReport f l) s = .next s) ∧
    (s.fabric.keeperSelf = true → s.fabric.keeperBusy = true → exec (.keeperLinkReport f l) s =
      .next { s with fabric := { s.fabric with keeperNext := s.fabric.keeperNext ++ [(f / 8, f % 8, l)] } }) ∧
    (s.fabric.keeperSelf = true → s.fabric.keeperBusy = false → answers (.keeperLinkReport f l) s fun u =>
      u.fabric.keeperBusy = true ∧ u.fabric.keeperDeaths = s.fabric.keeperDeaths ++ [(f / 8, f % 8, l)] ∧ u.fabric.confirmed = [])) ∧
  (∀ (s : State) (pkg : Nat), s.fabric.keeperSelf = true → s.fabric.keeperBusy = true → s.fabric.order = none →
    answers (.stagingConfirmed pkg) s fun u =>
      u.fabric.confirmed = insSorted s.fabric.confirmed pkg ∧
        (u.fabric.order = some ((s.fabric.keeperFrom + 1) % 256) ↔
          ∀ p ∈ Config.pod s.mgmt.image, p ∈ insSorted s.fabric.confirmed pkg)) ∧
  (∀ s : State, Config.isStandbyKeeper s.mgmt.image = true → s.fabric.keeperSelf = false → answers .keeperTimeout s fun u =>
    u.fabric.keeperSelf = true ∧ u.fabric.keeperAt = some s.fabric.coords ∧ u.fabric.keeperBusy = true ∧
      u.fabric.keeperFrom < 256) ∧
  ∀ (s : State) (key : Nat) (e : Combine), s.fabric.combine.find? (fun e => e.key = key) = some e → e.first.dst = s.fabric.coords →
    answers (.combiningTimeout key) s fun u => u.fabric.combine = s.fabric.combine.filter (fun e => e.key ≠ key) ∧
      ∃ p, u.agenda = s.agenda ++ [.event (.fabricPacketArrival p)] ∧
        ∀ k op n run vs, e.first.body = .piece k op n run vs → p.body = .piece k op e.ncon run e.vals ∧ p.also = e.also

/-- R74, R357, R359, R436, R439 to R443: boot with an image that verifies makes the package ready, with device memory zero but
for the distributors' state blocks and whole, a bad one puts it in recovery, measured; a resident core is gated, reported and
wakes; supply, throttling, the trip, THRM and SPDM act as their rules say, and nothing of it while the supply is out of range.
The model's own: boot is one transition (log entry 39), TYPE 17 goes to both ports and an SPDM answer holds what it says, its
encoding open (40). -/
def Obligations.PowerAndManagement : Prop :=
  (∀ s : State, s.mgmt.bootPhase = 0 → s.mgmt.recov = false → s.mgmt.supply = true →
    (∀ ph e, s.bootError s.mgmt.stored = some (ph, e) → answers .powerOn s fun u => { u with mgmt := s.mgmt } = s ∧
      u.mgmt.bootPhase = ph ∧ u.mgmt.recov = true ∧ u.mgmt.bootErr = e ∧ u.mgmt.seenImage = s.mgmt.stored ∧
        u.mgmt.image = (if ph = 2 then s.mgmt.stored else s.mgmt.image)) ∧
    (s.bootError s.mgmt.stored = none → answers .powerOn s fun u => u.mgmt.bootPhase = 7 ∧ u.mgmt.recov = false ∧
      u.mgmt.image = s.mgmt.stored ∧ u.fabric.coords = Config.coords s.mgmt.stored % 2 ^ 18 ∧
      u.mgmt.seenImage = s.mgmt.stored ∧ ∀ a, deviceByte a = true → s.mgmt.stagedFw = none →
        ((∀ d < 32, ¬ (blockKey d ≤ a ∧ a < blockKey d + 0x100)) → u.byte a = 0) ∧ u.linePoison a = false)) ∧
  (∀ (s : State) (c : Nat),
    let k := s.core c
    (k.gateable = true → (k.gate = .run → exec (.clockGate c) s = .next (s.onCore c fun k => { k with gate := .clock })) ∧
      ((k.gate = .run ∨ k.gate = .clock) → exec (.powerGate c) s = .next (s.onCore c fun k => { k with gate := .power }))) ∧
    (k.gateable = false → exec (.clockGate c) s = .next s ∧ exec (.powerGate c) s = .next s) ∧
    (k.gate = .waking → exec (.exitFromPowerGating c) s = .next (s.onCore c fun k => { k with gate := .run })) ∧
    (k.gate ≠ .waking → exec (.exitFromPowerGating c) s = .next s) ∧
    (k.resident = true → k.fogged = false → answers (.fogReport c) s fun u => (u.core c).fogged = true ∧ u.mem = s.mem ∧
      ∀ t, k.oldest = some t → ∃ r, (u.port (s.queue t.queue).owner).recs = (s.port (s.queue t.queue).owner).recs ++ [r] ∧
        r.typ = 8 ∧ r.die = c / 20 ∧ r.queue = t.queue ∧ r.words.getD 1 0 = t.nodeId) ∧
    ((k.resident = false ∨ k.fogged = true) → exec (.fogReport c) s = .next s)) ∧
  (∀ s : State, exec (.supplyOutOfRange true) s = .next { s with mgmt := { s.mgmt with supply := true } } ∧
    answers (.supplyOutOfRange false) s fun u => u.mgmt.supply = false ∧ u.mgmt.bootPhase = 0 ∧ u.cores = [] ∧ u.queues = [] ∧
      u.windows = [] ∧ u.lamp = 0 ∧ ∀ a, a < 2 ^ 48 → u.byte a = 0) ∧
  (∀ (s : State) (d : Nat) (power : Bool), s.mgmt.supply = false → exec (.throttleDown d power) s = .next s ∧
    exec (.throttleRaise d power) s = .next s ∧ exec .powerOn s = .next s) ∧
  (∀ (s : State) (d : Nat) (power : Bool), s.mgmt.supply = true →
    let posted (u : State) (step : Nat) : Prop := (u.die d).clock = step ∧ u.mem = s.mem ∧
      s.tellsBoth u 17 d [BitVec.ofNat 64 (d + step * 2 ^ 8 + power.toNat * 2 ^ 12)]
    ((s.die d).clock < 2 → answers (.throttleDown d power) s fun u => posted u ((s.die d).clock + 1)) ∧
    (2 ≤ (s.die d).clock → answers (.throttleDown d power) s fun u => u.dies = s.dies ∧ u.ports = s.ports) ∧
    (0 < (s.die d).clock → answers (.throttleRaise d power) s fun u => posted u ((s.die d).clock - 1)) ∧
    ((s.die d).clock = 0 → exec (.throttleRaise d power) s = .next s)) ∧
  (∀ (s : State) (d t : Nat), (t < 110 → exec (.thermalTrip d t) s = .next s) ∧
    (110 ≤ t → answers (.thermalTrip d t) s fun u => u.mgmt.tripped = true ∧ step u = .fault .poweredOff)) ∧
  (∀ (s : State) (p : Nat), answers (.thrmRead p) s fun u => u.mgmt = { s.mgmt with tmax := 0 } ∧ u.mem = s.mem ∧
    ∃ v, (u.port p).answer = some (leBytes 8 v, false) ∧ v % 2 ^ 8 = s.mgmt.tlim % 2 ^ 8) ∧
  (∀ (s : State) (p : Nat), s.mgmt.supply = true → ∀ i ∈ [Instr.getVersion p, .getCapabilities p, .negotiateAlgorithms p,
      .getDigests p, .getCertificate p, .challenge p, .getMeasurements p], answers i s fun u =>
    { u with ports := s.ports, fresh := s.fresh } = s ∧ (∀ n, n ≠ p → u.port n = s.port n) ∧
      ∃ a, u.port p = { s.port p with spdm := some a } ∧
        (i = .getVersion p → a = .version 0x13) ∧ (i = .getCapabilities p → a = .capabilities true true true false false) ∧
        (i = .negotiateAlgorithms p → a = .algorithms true true false) ∧
        (i = .getDigests p → a = .digests [(0, sha384 Config.certChain)]) ∧
        (i = .getCertificate p → a = .certificate 0 Config.certChain) ∧
        (i = .challenge p → ∃ sig, a = .challengeAuth 0 (sha384 Config.certChain) sig) ∧
        (i = .getMeasurements p → a = .measurements s.measurements)) ∧
  ∀ (s : State) (p : Nat), s.mgmt.supply = false → exec (.getMeasurements p) s = .next s

/-- R73, R79, R192, R338, R352, R395: a row with an uncorrectable or eight corrected errors (`Die.rowBad`; a
row is a 64 KiB frame: log entry 53) is recorded and posted once, a scrub changes no byte, a port that goes down stays
down with TYPE 6, a distributor that fails hands over to its relief and the relief's failure stops distribution with TYPE
19, HACT takes a halted context out of its halt, and the loss of the bridge is reported for both ports, drops the host's
accesses in flight and frees the LAMP (log entry 55: the event's port stands for the adapter). -/
def Obligations.FaultsAndLinks : Prop :=
  (∀ (s : State) (d ctl row : Nat),
    (ctl = ctlOf row → (s.die d).rowBad row = true → (s.die d).rowTold row = false → answers (.rowFault d ctl row) s fun u =>
      u.mem = s.mem ∧ (u.die d).rowFaults = (s.die d).rowFaults ++ [(ctl, row)] ∧ (u.die d).evWait = (s.die d).evWait ++
        [{ kind := 4, words := [BitVec.ofNat 64 (d * 2 ^ 36 + row), BitVec.ofNat 64 (ctl % 4), 0, 0] }]) ∧
    ((ctl ≠ ctlOf row ∨ (s.die d).rowBad row = false ∨ (s.die d).rowTold row = true) →
      exec (.rowFault d ctl row) s = .next s)) ∧
  (∀ (s : State) (d : Nat), answers (.patrolScrub d) s fun u => u.mem = s.mem ∧ u.poison = s.poison ∧ u.cores = s.cores ∧
    ∀ n, (s.die d).corrected.get n 0 ≤ (u.die d).corrected.get n 0) ∧
  (∀ (s : State) (p : Nat), s.mgmt.supply = true →
    (p ∉ s.cxlDown → answers (.cxlPortDown p) s fun u => u.cxlDown = s.cxlDown ++ [p] ∧ u.mem = s.mem ∧
      u.ck.disabled = true ∧ s.tellsBoth u 6 0 [BitVec.ofNat 64 p]) ∧
    (p ∈ s.cxlDown → exec (.cxlPortDown p) s = .next s)) ∧
  (∀ (s : State) (d m : Nat), ((s.die d).role = false → answers (.distributorHandover d m) s fun u => (u.die d).role = true ∧
      (u.die d).evHeld = false ∧ (u.die d).evq = (s.die d).evq ∧ (u.die d).prim.halted = true ∧ (u.die d).prim.mcause = m ∧
      (u.die d).relf.pc = 2 ^ 63 ∧ (u.die d).relf.halted = false ∧ (u.die d).relf.x.get 10 0 = BitVec.ofNat 64 m ∧
      (u.die d).todo = [.takeOver] ∧ u.mem = s.mem) ∧
    ((s.die d).role = true → exec (.distributorHandover d m) s = .next s) ∧
    ((s.die d).role = true → (s.die d).lost = false → answers (.distributionLost d m) s fun u => (u.die d).lost = true ∧
      (u.die d).relf.halted = true ∧ u.distLive d = false ∧ s.tellsBoth u 19 d [BitVec.ofNat 64 d, BitVec.ofNat 64 m])) ∧
  (∀ (s : State) (c x : Nat), ((s.ctx c x).status = .halted →
      exec (.hactUnwind c x) s = .next (s.onCtx c x fun k => { k with status := .waiting (.stopping 0 k.regions.isEmpty) }) ∧
      exec (.hactFail c x) s = .next (s.onCtx c x fun k => { k with status := .waiting (.stopping 0 true) })) ∧
    ((s.ctx c x).status ≠ .halted → exec (.hactUnwind c x) s = .next s ∧ exec (.hactFail c x) s = .next s)) ∧
  ∀ (s : State) (p : Nat),
    (answers (.bridgeLinkLost p) s fun u => u.mem = s.mem ∧ u.queues = s.queues ∧ (s.lamp ≠ 1 → s.lamp ≠ 2 → u.lamp = s.lamp) ∧
      ∀ n < 2, (u.port n).linkLost = true ∧ (∀ r ∈ u.net, r.agent ≠ .host n) ∧ (∀ q ∈ u.parked, q.req.agent ≠ .host n) ∧
        (s.lamp = n + 1 → u.lamp = 0 ∧
          (u.port (1 - n)).recs = (s.port (1 - n)).recs ++ [{ typ := 7, die := 0, queue := 0, words := [] }])) ∧
    answers (.bridgeLinkReturn p) s fun u => u.mem = s.mem ∧ u.queues = s.queues ∧ u.lamp = s.lamp ∧
      ∀ n < 2, u.port n = { s.port n with linkLost := false, gone := false }

/-! ## The control ports -/

/-- R178, R179, R192, R343, R391 to R393, R436: a port takes the free LAMP and drops its own, an index goes forward only and by
the queue's owner, with a pending kick, BRERR.CLR clears the count, none of it before the package is ready or (the LAMP) in
recovery; a register without its own row takes its RW fields, those of another package of the mooring in a packet; an aperture
access through an invalid entry fails and counts, one through a valid entry of this package reads or writes the bytes at VBASE
and the offset in the entry's address space, one that is declined or poisoned counts in BRERR, and one for another package goes
out in a packet. The model's own: index arithmetic modulo 2^32 and LAMP_TAKE before LAMP_DROP (log entry 42), the coding of
registers of other packages (55). -/
def Obligations.PortWrites : Prop :=
  (∀ (s : State) (p v : Nat), s.portUp = false → exec (.lampTake p) s = .next s ∧ exec (.lampDrop p) s = .next s ∧
    exec (.brerrClear p) s = .next s ∧ (∀ off, off < 2 ^ 16 → exec (.registerWrite p off v) s = .next s) ∧
    answers (.evheadWrite p v) s fun u => u.mem = s.mem ∧ ∀ n, u.port n = s.port n) ∧
  (∀ (s : State) (p : Nat), s.mgmt.bootPhase = 7 → (s.lamp = 0 → exec (.lampTake p) s = .next { s with lamp := p + 1 }) ∧
    (s.lamp ≠ 0 → exec (.lampTake p) s = .next s) ∧ (s.lamp = p + 1 → exec (.lampDrop p) s = .next { s with lamp := 0 }) ∧
    (s.lamp ≠ p + 1 → exec (.lampDrop p) s = .next s) ∧
    exec (.brerrClear p) s = .next (s.onPort p fun k => { k with brerr := 0 })) ∧
  (∀ (s : State) (p q v : Nat),
    let k := s.queue q
    let d := (BitVec.ofNat 32 v - k.tail).toNat
    ((k.v = true ∧ k.owner = p ∧ 1 ≤ d ∧ d ≤ 2 ^ 31 - 1) → answers (.qtailWrite p q v) s fun u => u.mem = s.mem ∧
      u.queue q = { k with tail := BitVec.ofNat 32 v } ∧
      ((u.die 0).kicks = (s.die 0).kicks ||| (1#64 <<< q)) ∧ ∀ n, n ≠ q → u.queue n = s.queue n) ∧
    ((k.v = false ∨ k.owner ≠ p ∨ d = 0 ∨ 2 ^ 31 ≤ d) → exec (.qtailWrite p q v) s = .next s)) ∧
  (∀ (s : State) (p v : Nat), s.mgmt.bootPhase = 7 →
    let d := (BitVec.ofNat 32 v - (s.port p).evhead).toNat
    answers (.evheadWrite p v) s fun u => u.mem = s.mem ∧ (∀ n, n ≠ p → u.port n = s.port n) ∧
      ((1 ≤ d ∧ d ≤ 2 ^ 31 - 1) → u.port p = { s.port p with evhead := BitVec.ofNat 32 v }) ∧
      ((d = 0 ∨ 2 ^ 31 ≤ d) → u.port p = s.port p)) ∧
  (∀ (s : State) (p v : Nat), s.mgmt.bootPhase = 7 →
    exec (.registerWrite p 0x10 v) s = .next (s.onPort p fun k => { k with op0 := v % 2 ^ 64 }) ∧
    exec (.registerWrite p 0x18 v) s = .next (s.onPort p fun k => { k with op1 := v % 2 ^ 64 }) ∧
    exec (.registerWrite p 0x20 v) s = .next (s.onPort p fun k => { k with op2 := v % 2 ^ 64 }) ∧
    exec (.registerWrite p 0x28 v) s = .next (s.onPort p fun k => { k with op3 := v % 2 ^ 64 }) ∧
    exec (.registerWrite p 0x40 v) s =
      .next { s with mgmt := { s.mgmt with fog := max 1000 (min 60000000 (v % 2 ^ 26)) } } ∧
    exec (.registerWrite p 0x48 v) s = .next s ∧
    exec (.registerWrite p 0x58 v) s = .next { s with mgmt := { s.mgmt with pwrcap := max 1000 (min 4600 (v % 2 ^ 16)) } } ∧
    exec (.registerWrite p 0x60 v) s = .next { s with mgmt := { s.mgmt with tlim := max 70 (min 105 (v % 2 ^ 8)) } } ∧
    (∀ e < 64, answers (.registerWrite p (0x200 + 8 * e) v) s fun u => (u.port p).ap.get e {} =
      { v := bit v 0, pkg := fld v 1 3, asid := fld v 4 6, vbase := fld v 16 31 }) ∧
    (∀ q < 64, exec (.registerWrite p (0x1018 + 64 * q) v) s = exec (.qtailWrite p q (v % 2 ^ 32)) s) ∧
    (∀ q < 64, (s.queue q).v = true → (s.queue q).owner = p →
      exec (.registerWrite p (0x1000 + 64 * q) v) s = .next (s.onQueue q fun k => { k with prio := fld v 2 3 })) ∧
    ∀ j < 8, ∀ off < 2 ^ 16,
      (j = Config.mooringIndex s.mgmt.image →
        exec (.registerWrite p (2 ^ 16 * (j + 1) + off) v) s = exec (.registerWrite p off v) s) ∧
      (j ≠ Config.mooringIndex s.mgmt.image → (s.port p).gone = false → exec (.registerWrite p (2 ^ 16 * (j + 1) + off) v) s =
        .next (s.queuePacket 0 0 (s.mooringAt j) false (.regWrite p off v)))) ∧
  ∀ (s : State) (p off size : Nat) (data : List Byte) (o : Bool), s.mgmt.bootPhase = 7 → (s.port p).gone = false →
    (s.port p).apq = [] →
    let e := (s.port p).ap.get (off / 2 ^ 30) {}
    let va := e.vbase * 2 ^ 16 + off % 2 ^ 30
    let more := min ((s.port p).brerr + 1) (2 ^ 32 - 1)
    let fails : Option (List Byte × Bool) := some (List.replicate size 0xFF, true)
    let read : ApReq := { ordered := o, off, size, data := none, tag := s.fresh }
    let write : ApReq := { ordered := o, off, size := data.length, data := some data, tag := s.fresh }
    let joined (r : ApReq) : State := { s with fresh := s.fresh + 1 }.onPort p fun k => { k with apq := [r] }
    (e.v = false →
      (answers (.apertureRead p o off size) s fun u => u.mem = s.mem ∧
        u.port p = { s.port p with answer := fails, brerr := more }) ∧
      answers (.apertureWrite p o off data) s fun u => u.mem = s.mem ∧ u.port p = { s.port p with brerr := more }) ∧
    (e.v = true → e.pkg = Config.mooringIndex s.mgmt.image →
      (let a : Acc := { agent := .host p, kind := .load, asid := e.asid }
        let s1 := joined read
        s1.asked (.host p) (2 ^ 128 + s.fresh) = false → s1.blocked a (parts va size .raw) 0 [] = none →
        s1.readsNow a [(va, size)] = true →
        let bs := s1.readParts a [] (cuts va size)
        ((∀ c ∈ s1.placesOf a 0 [] va size .raw, c.2 ≠ .declined) → answers (.apertureRead p o off size) s fun u =>
          u.mem = s.mem ∧ u.port p = { s.port p with
            answer := some (bs.map (·.1), gotPoison bs), brerr := if gotPoison bs then more else (s.port p).brerr }) ∧
        ((∃ c ∈ s1.placesOf a 0 [] va size .raw, c.2 = .declined) → answers (.apertureRead p o off size) s fun u =>
          u.mem = s.mem ∧ u.port p = { s.port p with answer := fails, brerr := more })) ∧
      let a : Acc := { agent := .host p, kind := .store, asid := e.asid }
      let asks := (joined write).ask a (2 ^ 128 + s.fresh) [] 0 0 [.raw va data false] none
      (∀ d l t, asks = .got d l t → exec (.apertureWrite p o off data) s = .next
        ((if d.declined = [] then t else t.onPort p fun k => { k with brerr := min (k.brerr + 1) (2 ^ 32 - 1) }).onPort p fun k =>
          { k with apq := k.apq.filter fun r => r.tag ≠ s.fresh })) ∧
      ∀ t, asks = .went t → exec (.apertureWrite p o off data) s = .next t) ∧
    (e.v = true → e.pkg ≠ Config.mooringIndex s.mgmt.image →
      let goes (i : Instr) (r : ApReq) : Prop := ∀ t : State,
        (joined r).sendPacket 0 0 (s.mooringAt e.pkg) false (.access p o e.asid va r.size r.data s.fresh) = some t →
        exec i s = .next (t.onPort p fun k =>
          { k with apq := k.apq.map fun q => if q.tag = s.fresh then { q with sent := true } else q })
      goes (.apertureRead p o off size) read ∧ goes (.apertureWrite p o off data) write)

/-- R178, R187, R189, R193, R194, R196, R360: queue commands act for the queue's owner, transfer and the offline map for
the holder of the LAMP, a context action for the owner of the task's queue; each ends with the first status that
applies. The model's own: a create that names the other port's queue ends with exists (log entry 60), a transfer of no queue
without the LAMP with no LAMP (72), a context action on a core above 639 with no task (16), and what a resume reloads (43). -/
def Obligations.QueueCommands : Prop :=
  ∀ (s : State) (c : Cmd), (s.port c.port).busy = false → s.mgmt.bootPhase = 7 →
    let k := s.queue c.queue
    let mine : Prop := k.v = true ∧ k.owner = c.port
    let bare : Prop := c.op0 = 0 ∧ c.op1 = 0 ∧ c.op2 = 0 ∧ c.op3 = 0
    (∀ prio < 8, ∀ cap < 32, ∀ asid < 64, c.op0 = prio + cap * 2 ^ 8 + asid * 2 ^ 16 → c.op1 < 2 ^ 56 → c.op2 < 2 ^ 56 → c.op3 = 0 →
      (k.v = true → (Instr.queueCreate c).ends s c 0x10 .exists s) ∧
      (k.v = false → (cap < 3 ∨ 16 < cap ∨ c.op1 % 128 ≠ 0 ∨ c.op2 % 8 ≠ 0) → (Instr.queueCreate c).ends s c 0x10 .range s) ∧
      (k.v = false → 3 ≤ cap → cap ≤ 16 → c.op1 % 128 = 0 → c.op2 % 8 = 0 → s.registered asid = false →
        (Instr.queueCreate c).ends s c 0x10 .notRegistered s) ∧
      (k.v = false → 3 ≤ cap → cap ≤ 16 → c.op1 % 128 = 0 → c.op2 % 8 = 0 → s.registered asid = true →
        (Instr.queueCreate c).ends s c 0x10 .done (s.onQueue c.queue fun _ =>
          { v := true, owner := c.port, prio, caplog := cap, asid, base := c.op1, heada := c.op2, state := 1 }))) ∧
    (bare → mine → (Instr.queueDestroy c).runs s c 0x11 (s.onQueue c.queue fun q => { q with dying := true }) ∧
      (Instr.kick c).ends s c 0x15 .done (s.kick c.queue)) ∧
    (bare → ¬ mine → (Instr.queueDestroy c).ends s c 0x11 .notOwner s ∧ (Instr.kick c).ends s c 0x15 .notOwner s) ∧
    (bare → s.lamp = c.port + 1 → k.v = true →
      (Instr.queueTransfer c).ends s c 0x14 .done (s.onQueue c.queue fun q => { q with owner := 1 - q.owner })) ∧
    (bare → s.lamp = c.port + 1 → k.v = false → (Instr.queueTransfer c).ends s c 0x14 .notOwner s) ∧
    (bare → s.lamp ≠ c.port + 1 → (Instr.queueTransfer c).ends s c 0x14 .noLamp s) ∧
    (c.op0 < 2 ^ 56 → c.op0 % 64 = 0 → c.op1 = 0 → c.op2 = 0 → c.op3 = 0 →
      (¬ mine → (Instr.queueSuspend c).ends s c 0x12 .notOwner s ∧ (Instr.queueResume c).ends s c 0x13 .notOwner s) ∧
      (mine → k.state ≠ 1 → (Instr.queueSuspend c).ends s c 0x12 .notRunning s) ∧
      (mine → k.state = 1 →
        (Instr.queueSuspend c).runs s c 0x12 (s.onQueue c.queue fun q => { q with saves := q.saves ++ [(c.port, c.op0)] })) ∧
      (mine → k.state < 2 → (Instr.queueResume c).ends s c 0x13 .notSuspended s) ∧
      (mine → k.state = 2 → ∀ p l t, State.askRead (s.onPort c.port fun k => { k with busy := true, running := some (0x13, c) })
          (distAcc 0 k.asid .load) (2 * c.port) [] [(c.op0, 64)] = .got p l t →
        let w (i : Nat) : Nat := gotNat ((p.data.flatten.drop (8 * i)).take 8)
        answers (.queueResume c) s fun u => (u.port c.port).stat = 0 ∧ (u.port c.port).busy = false ∧
          (u.die 0).kicks.getLsbD c.queue = decide (c.queue < 64) ∧ u.queue c.queue = { t.queue c.queue with
            head := BitVec.ofNat 32 (w 1), selcnt := w 3 % 2 ^ 64, lastseq := w 4 % 2 ^ 64, depsat := w 5 % 8, prio := w 6 % 8
            state := 1, stale := false } ∧
          let rr := copyKey 0 (t.progressOf 0) + 8 + w 6 % 8
          u.byte rr = BitVec.ofNat 8 (w 7 % 64) ∧ ∀ a, a ≠ rr → u.byte a = t.byte a) ∧
      (mine → k.state = 3 → answers (.queueResume c) s fun u => u.mem = s.mem ∧ u.queue c.queue = { k with state := 1 } ∧
        (u.die 0).kicks = (s.die 0).kicks ||| (1#64 <<< c.queue) ∧ (u.port c.port).stat = 0 ∧ (u.port c.port).busy = false)) ∧
    (c.queue = 0 → c.op1 = 0 → c.op2 = 0 → c.op3 = 0 →
      (s.lamp ≠ c.port + 1 → (Instr.offlineMap c).ends s c 0x16 .noLamp s) ∧
      (s.lamp = c.port + 1 → (Instr.offlineMap c).ends s c 0x16 .done
        { s with mapPend := s.mapPend ++ [BitVec.ofNat 640 (s.nat (hostKey c.op0) 80)] })) ∧
    (∀ core < 2 ^ 10, ∀ x < 4, ∀ act, c.op0 = core + x * 2 ^ 10 + act * 2 ^ 12 → c.queue = 0 → c.op1 = 0 → c.op2 = 0 → c.op3 = 0 →
      ((act = 0 ∨ act = 3) → (Instr.contextAction c).ends s c 0x18 .unknown s) ∧
      ((act = 1 ∨ act = 2) → (s.ctx core x).task = none → (Instr.contextAction c).ends s c 0x18 .noTask s) ∧
      ∀ t, (act = 1 ∨ act = 2) → (s.ctx core x).task = some t →
        let q := s.queue t.queue
        ((q.v = false ∨ q.owner ≠ c.port) → (Instr.contextAction c).ends s c 0x18 .notOwner s) ∧
        (q.v = true → q.owner = c.port → (s.ctx core x).status ≠ .halted →
          (Instr.contextAction c).ends s c 0x18 .done (s.onCtx core x fun k => { k with stop := some (act == 2) })) ∧
        (q.v = true → q.owner = c.port → (s.ctx core x).status = .halted → (Instr.contextAction c).ends s c 0x18 .done
          (s.onCtx core x fun k => { k with status := .waiting (.stopping 0 (act == 2 || k.regions.isEmpty)) }))) ∧
    ∀ code, (Instr.unknownCommand code c).ends s c code .unknown s

/-- R369 to R377, R437, R438: the checkpoint commands act in their phase, the standby commands on a standby, a package
reset and an image change for the holder of the LAMP; each ends with the first status that applies. The model's own: quiesce
ends at once, rollback and rebuild keep their port busy (log entry 38), and assume identity does until the daymark change that
it waits for (52). -/
def Obligations.CheckpointCommands : Prop :=
  ∀ (s : State) (c : Cmd), (s.port c.port).busy = false → s.mgmt.bootPhase = 7 → c.queue = 0 → c.op2 = 0 → c.op3 = 0 →
    let g := s.ck
    (c.op0 = 0 → c.op1 = 0 →
      (g.phase ≠ 0 → (Instr.quiesce c).ends s c 0x19 .notRunning s) ∧
      (g.phase = 0 → g.disabled = true → (Instr.quiesce c).ends s c 0x19 .disabled s) ∧
      (g.phase = 0 → g.disabled = false → (Instr.quiesce c).ends s c 0x19 .done { s with ck := { g with phase := 1 } }) ∧
      (g.phase ≠ 2 → (Instr.capture c).ends s c 0x1A .notQuiesced s) ∧
      (g.phase = 2 → g.pending ≠ 0 → (Instr.capture c).ends s c 0x1A .pending s) ∧
      (g.phase = 2 → g.pending = 0 → answers (.capture c) s fun u => (u.port c.port).busy = true ∧ u.ck.phase = 3 ∧
        u.ck.retireSince = false ∧ u.ck.capFailed = s.cxlDown.head? ∧ u.cores = s.cores ∧
        (s.cxlDown = [] → 2 ^ 41 ≤ s.slotKey g.target → ∀ a, deviceByte a = true → u.byte a = s.byte a)) ∧
      (g.ready = false → (Instr.commit c).ends s c 0x1B .notReady s) ∧
      (g.ready = true → answers (.commit c) s fun u => (u.port c.port).busy = false ∧ (u.port c.port).stat = 0 ∧ u.mem = s.mem ∧
        u.ck = { g with committed := g.pending, cslot := g.pslot, pending := 0, ready := false }) ∧
      (g.committed = 0 → (Instr.rollback c).ends s c 0x1C .none s) ∧
      (g.committed ≠ 0 → answers (.rollback c) s fun u => u.mem = s.mem ∧ u.net = [] ∧
        ((∀ w ∈ s.windows, c.port ∉ w.2.closing) → (∀ w ∈ s.groups, c.port ∉ w.2.closing) → (u.port c.port).busy = true) ∧
        u.parked = [] ∧ u.ck = { g with phase := 1, restoring := true, pending := 0, ready := false } ∧
        ∀ n x, (u.ctx n x).task = none ∧ (u.ctx n x).status = .idle ∧ (u.core n).runq = []) ∧
      (g.standby = false → (Instr.rebuild c).ends s c 0x1E .notStandby s) ∧
      (g.standby = true → (Instr.rebuild c).runs s c 0x1E { s with ck := { g with rebuilding := true } }) ∧
      (s.lamp ≠ c.port + 1 → (Instr.packageReset c).ends s c 0x27 .noLamp s) ∧
      (s.lamp = c.port + 1 → answers (.packageReset c) s fun u => u.lamp = 0 ∧ u.cores = [] ∧ u.queues = [] ∧ u.windows = [] ∧
        u.mgmt.bootPhase = 0 ∧ u.mgmt.image = s.mgmt.image ∧ u.ck = {} ∧ ∀ a, a < 2 ^ 48 → u.byte a = 0)) ∧
    (c.op0 < 2 ^ 21 → c.op1 = 0 →
      (g.standby = false → (Instr.assumeIdentity c).ends s c 0x1D .notStandby s) ∧
      (g.standby = true → (Instr.assumeIdentity c).runs s c 0x1D
        { s with fabric := { s.fabric with identity := some (c.op0 % 2 ^ 18, c.op0 / 2 ^ 18) } })) ∧
    (s.lamp ≠ c.port + 1 → (Instr.configurationImageChange c).ends s c 0x28 .noLamp s) ∧
    (s.lamp = c.port + 1 →
      let img := s.bytes (hostKey c.op0) c.op1
      ((c.op0 % 64 ≠ 0 ∨ c.op1 = 0 ∨ 65536 < c.op1) → (Instr.configurationImageChange c).ends s c 0x28 .range s) ∧
      (c.op0 % 64 = 0 → 1 ≤ c.op1 → c.op1 ≤ 65536 →
        let drawn : State := { s with fresh := s.fresh + 1 }
        let reads := Config.hostReadFails s.fresh = false
        (¬ reads → (Instr.configurationImageChange c).ends s c 0x28 .declined drawn) ∧
        (reads → (imageOk img = false ∨ Config.imgver img < Config.imgver s.mgmt.stored) →
          (Instr.configurationImageChange c).ends s c 0x28 .image drawn) ∧
        (reads → imageOk img = true → Config.imgver s.mgmt.stored ≤ Config.imgver img →
          (Instr.configurationImageChange c).ends s c 0x28 .done { drawn with mgmt := { s.mgmt with nextImage := some img } })))

/-- R16, R30, R32, R35, R138, R192: the commands on address spaces, translations, fault records and physical ranges check their
operands, act, and end with the first status that applies; a teardown declines what is parked in its address space. That a
physical write is executed in one step, once the streams have room, is the model's own (log entry 61). -/
def Obligations.SpaceCommands : Prop :=
  ∀ (s : State) (c : Cmd), (s.port c.port).busy = false → s.mgmt.bootPhase = 7 → c.queue = 0 → c.op3 = 0 →
    (c.op0 < 64 → c.op2 = 0 →
      (s.registered c.op0 = true → (Instr.registerAddressSpace c).ends s c 0x30 .exists s) ∧
      (s.registered c.op0 = false → (2 ^ 48 ≤ c.op1 ∨ c.op1 % 2048 ≠ 0 ∨ s.paOk c.op1 2048 = false) →
        (Instr.registerAddressSpace c).ends s c 0x30 .range s) ∧
      (s.registered c.op0 = false → c.op1 < 2 ^ 48 → c.op1 % 2048 = 0 → s.paOk c.op1 2048 = true →
        (Instr.registerAddressSpace c).ends s c 0x30 .done { s with spaces := s.spaces ++ [(c.op0, { root := c.op1, owner := c.port })] })) ∧
    (c.op0 < 64 → c.op1 = 0 → c.op2 = 0 → s.lamp ≠ c.port + 1 → (Instr.tearDownAddressSpace c).ends s c 0x31 .noLamp s) ∧
    (c.op0 < 64 → c.op1 = 0 → c.op2 = 0 → s.lamp = c.port + 1 →
      (s.registered c.op0 = false → (Instr.tearDownAddressSpace c).ends s c 0x31 .notRegistered s) ∧
      (s.registered c.op0 = true →
        ((∃ q ∈ s.queues, q.2.v = true ∧ q.2.asid = c.op0) ∨ ∃ w ∈ s.windows, w.2.v = true ∧ w.2.asid = c.op0) →
        (Instr.tearDownAddressSpace c).ends s c 0x31 .inUse s) ∧
      (s.registered c.op0 = true → (∀ q ∈ s.queues, ¬ (q.2.v = true ∧ q.2.asid = c.op0)) →
        (∀ w ∈ s.windows, ¬ (w.2.v = true ∧ w.2.asid = c.op0)) →
        let t := State.declineSpace (s.onPort c.port fun k => { k with busy := true, running := some (0x31, c) }) c.op0
        answers (.tearDownAddressSpace c) s fun u => u.registered c.op0 = false ∧ u.mem = t.mem ∧ u.parked = t.parked ∧
          u.results = t.results ∧ (u.port c.port).stat = 0 ∧ (u.port c.port).busy = false) ∧
      (s.registered c.op0 = true → (∀ q ∈ s.queues, ¬ (q.2.v = true ∧ q.2.asid = c.op0)) →
        (∀ w ∈ s.windows, ¬ (w.2.v = true ∧ w.2.asid = c.op0)) → (∀ p ∈ s.parked, p.asid ≠ c.op0) →
        answers (.tearDownAddressSpace c) s fun u => u.registered c.op0 = false ∧ u.mem = s.mem ∧
          (u.port c.port).stat = 0 ∧ (u.port c.port).busy = false ∧ ∀ va level, u.cached c.op0 level va = none)) ∧
    (c.op0 < 64 → s.registered c.op0 = true → s.owns c.port c.op0 = true →
      answers (.translationInvalidate c) s fun u => u.mem = s.mem ∧ (u.port c.port).stat = 0 ∧ (u.port c.port).busy = false ∧
        ∀ va, c.op1 ≤ va → va < c.op1 + c.op2 → ∀ level, u.cached c.op0 level va = none) ∧
    (∀ die < 32, ∀ mtu < 5, ∀ asid < 64, ∀ answer < 2, c.op0 = die + mtu * 2 ^ 5 + asid * 2 ^ 8 + answer * 2 ^ 16 → c.op2 = 0 →
      s.registered asid = true →
      (s.owns c.port asid = false → (Instr.faultAnswer c).ends s c 0x33 .notOwner s) ∧
      (s.owns c.port asid = true → (homeDie c.op1 ≠ die ∨ mtuOf c.op1 ≠ mtu) → (Instr.faultAnswer c).ends s c 0x33 .done s) ∧
      (s.owns c.port asid = true → homeDie c.op1 = die → mtuOf c.op1 = mtu → answers (.faultAnswer c) s fun u =>
        (u.port c.port).stat = 0 ∧ (u.port c.port).busy = false ∧ (answer = 1 → ∀ p ∈ u.parked, ¬ (p.asid = asid ∧ p.page = pageOf c.op1)))) ∧
    ((c.op2 = 0 ∨ 2 ^ 20 < c.op2 ∨ s.paOk c.op0 c.op2 = false) → (Instr.physicalWrite c).ends s c 0x34 .range s ∧
      (Instr.physicalRead c).ends s c 0x35 .range s) ∧
    (1 ≤ c.op2 → c.op2 ≤ 2 ^ 20 → s.paOk c.op0 c.op2 = true → c.op0 < 2 ^ 41 →
      (s.physRoom 0 c.op0 c.op2 = false → (Instr.physicalWrite c).runs s c 0x34 s) ∧
      (s.physRoom 0 c.op0 c.op2 = true → answers (.physicalWrite c) s fun u => (u.port c.port).stat = 0 ∧ (u.port c.port).busy = false ∧
        ∀ a, u.byte a = if c.op0 ≤ a ∧ a < c.op0 + c.op2 then s.byte (hostKey c.op1 + (a - c.op0)) else s.byte a) ∧
      ((∀ a, c.op0 ≤ a → a < c.op0 + c.op2 → s.linePoison a = false) → answers (.physicalRead c) s fun u =>
        (u.port c.port).stat = 0 ∧ (u.port c.port).busy = false ∧
          ∀ a, u.byte a = if hostKey c.op1 ≤ a ∧ a < hostKey c.op1 + c.op2 then s.byte (c.op0 + (a - hostKey c.op1)) else s.byte a))

/-- R81, R86, R387, R400 to R403, R409: a window or group is registered from its block in host memory and deregistered,
a code object is linked and written with its definitions entering the table, or ends with the failure its linking gives,
unloading removes its definitions, loads of the two ports run one at a time, and a resident firmware image is linked and
staged. The model's own: a window that closes waits for its puts (log entry 34), a group's deregistration stays busy and what a
list that fails ends with (35), LATSET and the certificate's checks (36). -/
def Obligations.WindowGroupAndObjectCommands : Prop :=
  ∀ (s : State) (c : Cmd), (s.port c.port).busy = false → s.mgmt.bootPhase = 7 → c.queue = 0 → c.op1 = 0 → c.op2 = 0 → c.op3 = 0 →
    let w0 := s.nat (hostKey c.op0) 8
    let w1 := s.nat (hostKey c.op0 + 8) 8
    let n := fld w1 32 10
    let at_ (code : Nat) : State := s.onPort c.port fun k => { k with busy := true, running := some (code, c) }
    let w : Window := { v := true, puten := bit w0 1, geten := bit w0 2, asid := fld w0 8 6, base := fld w0 16 31 * 2 ^ 16, size := fld w1 0 32 }
    (((s.window n).v = true ∨ s.registered w.asid = false ∨ w.size = 0 ∨ 2 ^ 31 ≤ w.size ∨ 2 ^ 47 < w.base + w.size * 2 ^ 16) →
      (Instr.registerWindow c).ends s c 0x22 .range s) ∧
    ((s.window n).v = false → s.registered w.asid = true → 1 ≤ w.size → w.size < 2 ^ 31 → w.base + w.size * 2 ^ 16 ≤ 2 ^ 47 →
      (Instr.registerWindow c).ends s c 0x22 .done (s.onWindow n fun _ => w)) ∧
    (c.op0 < 2 ^ 10 → (s.window c.op0).v = false → (Instr.deregisterWindow c).ends s c 0x23 .notRegistered s) ∧
    (c.op0 < 2 ^ 10 → (s.window c.op0).v = true → (s.window c.op0).closing = [] → (∀ f ∈ s.puts, f.p.win ≠ c.op0) →
      answers (.deregisterWindow c) s fun u => (u.window c.op0).v = false ∧ (u.port c.port).stat = 0 ∧ (u.port c.port).busy = false) ∧
    (c.op0 < 2 ^ 10 → (s.window c.op0).v = true → (∃ f ∈ s.puts, f.p.win = c.op0) →
      answers (.deregisterWindow c) s fun u => (u.window c.op0).v = true ∧ (u.window c.op0).puten = false ∧
        (u.window c.op0).geten = false ∧ (u.port c.port).busy = true) ∧
    (c.op0 < 2 ^ 12 → (∀ p ∈ s.groups, p.1 ≠ c.op0) → (Instr.deregisterGroup c).ends s c 0x21 .done s) ∧
    (∀ g, c.op0 < 2 ^ 12 → s.groups.find? (fun p => p.1 = c.op0) = some (c.op0, g) → g.closing = [] →
      (s.groupIdle c.op0 = true →
        (Instr.deregisterGroup c).ends s c 0x21 .done { s with groups := s.groups.filter fun p => p.1 ≠ c.op0 }) ∧
      (s.groupIdle c.op0 = false → answers (.deregisterGroup c) s fun u => (u.port c.port).busy = true ∧ u.mem = s.mem ∧
        u.groups.get c.op0 g = { g with closing := [c.port] })) ∧
    (∀ b, (∀ p ∈ s.groups, p.1 ≠ b.group) → groupOf (s.bytes (hostKey c.op0) 32) = some b →
      let a : Acc := { agent := .host c.port, kind := .load, asid := b.asid }
      let s1 := at_ 0x20
      let bs := s1.readParts a [] (cuts b.list (4 * b.size))
      let l := (List.range b.size).map fun i => gotNat ((bs.drop (4 * i)).take 4)
      s1.asked (.host c.port) 1 = false → s1.blocked a (parts b.list (4 * b.size) .raw) 0 [] = none →
      s1.readsNow a [(b.list, 4 * b.size)] = true → gotPoison bs = false →
      b.rank < b.size → l.getD b.rank 0 = s.fabric.coords → l.Nodup → (∀ x ∈ l, x < 2 ^ 18) →
      answers (.registerGroup c) s fun u => (u.port c.port).stat = 0 ∧ (u.port c.port).busy = false ∧ u.mem = s.mem ∧
        ∃ g, (b.group, g) ∈ u.groups ∧ g.list = l ∧ g.rank = b.rank ∧ g.size = b.size) ∧
    (c.op0 < 2 ^ 62 → s.loading c.port = true → ∀ i ∈ [Instr.loadObject c, .unloadObject c], answers i s fun u => u.mem = s.mem ∧
      u.symbols = s.symbols ∧ u.objects = s.objects ∧ (u.port c.port).busy = true) ∧
    (c.op0 < 2 ^ 62 → s.loading c.port = false → (∀ o ∈ s.objects, ¬ (o.image = c.op0 % 2 ^ 56 ∧ o.asid = c.op0 / 2 ^ 56)) →
      (Instr.unloadObject c).ends s c 0x25 .unknown s) ∧
    (c.op0 < 2 ^ 62 → s.loading c.port = false → (∃ o ∈ s.objects, o.image = c.op0 % 2 ^ 56 ∧ o.asid = c.op0 / 2 ^ 56) →
      let asid := c.op0 / 2 ^ 56
      let image := c.op0 % 2 ^ 56
      let used : Prop := ∃ o ∈ s.objects, o.asid = asid ∧ o.image ≠ image ∧
        ∃ e ∈ s.symbols.get asid [], e.obj = image ∧ e.name ∈ o.uses
      (used → (Instr.unloadObject c).ends s c 0x25 .inUse s) ∧
      (¬ used → answers (.unloadObject c) s fun u => u.mem = s.mem ∧ (u.port c.port).stat = 0 ∧ (u.port c.port).busy = false ∧
        (∀ e, e ∈ u.symbols.get asid [] ↔ e ∈ s.symbols.get asid [] ∧ e.obj ≠ image) ∧
        ∀ o ∈ u.objects, ¬ (o.image = image ∧ o.asid = asid))) ∧
    ∀ (o : Object) (h tab all : List (Byte × Bool)) (code : Nat),
      let rd (n : Nat) (bs : List (Byte × Bool)) : Prop :=
        (at_ code).readNow (loadAcc c .load) (objAddr c) n = .ready bs ∧ gotPoison bs = false
      let img := all.map (·.1)
      let asid := objAsid c
      let defsOf := s.symbols.get asid []
      c.op0 < 2 ^ 62 → s.loading c.port = false → (s.port c.port).linking = none →
      rd 64 h → headerOk (h.map (·.1)) = true → tableLen (h.map (·.1)) < 2 ^ 47 → rd (tableLen (h.map (·.1))) tab →
      rd (imageLen (tab.map (·.1))) all → imageLen (tab.map (·.1)) < 2 ^ 47 →
      objectOf img (lostIn all) = some o → o.latset = 1 →
      (code = 0x24 → imgNat img 6 1 = 0 → s.textPages asid o.segs = true →
        (∀ st, o.link (objAddr c) defsOf = .bad st → answers (.loadObject c) s fun u => u.mem = s.mem ∧ u.symbols = s.symbols ∧
          u.objects = s.objects ∧ (u.port c.port).stat = st.code ∧ (u.port c.port).busy = false) ∧
        ∀ segs defs uses, o.link (objAddr c) defsOf = .ok segs defs uses → (o.segs.any Seg.bad) = false →
          let w := loadAcc c .store
          ∀ p l t, (at_ code).ask w 1 [] 0 0 (segs.map fun g => .read g.vaddr g.data.length) none = .got p l t →
          (p.declined ≠ [] → answers (.loadObject c) s fun u => u.mem = t.mem ∧ u.symbols = t.symbols ∧ u.objects = t.objects ∧
            (u.port c.port).stat = Stat.declined.code ∧ (u.port c.port).busy = false) ∧
          (p.declined = [] → (t.symbols.get asid []).length + defs.length ≤ 65536 →
            let r := (t.forgetLoads 0).submit
              (w.req t.nextId 3 [] 0 0 (segs.map fun g => .raw g.vaddr g.data false) none)
            ((r.result? (.dist 0) 3).isSome = true → answers (.loadObject c) s fun u => u.mem = r.mem ∧
              (u.port c.port).stat = 0 ∧ (u.port c.port).busy = false ∧ (u.port c.port).linking = none ∧
              u.symbols.get asid [] = r.symbols.get asid [] ++ defs ∧
              u.objects = r.objects ++ [{ image := objAddr c, asid, uses }]) ∧
            (r.result? (.dist 0) 3 = none → answers (.loadObject c) s fun u => u.mem = r.mem ∧ u.symbols = r.symbols ∧
              u.objects = r.objects ∧
              (u.port c.port).linking = some { asid, image := objAddr c, defs, uses }))) ∧
      (code = 0x26 → imgNat img 6 1 = 1 → certKind o.cert = 0 → s.lamp = c.port + 1 →
        (∀ st, o.link (objAddr c) defsOf = .bad st → answers (.installResidentImage c) s fun u => u.mem = s.mem ∧
          u.mgmt = s.mgmt ∧ (u.port c.port).stat = st.code ∧ (u.port c.port).busy = false) ∧
        ∀ segs defs uses, o.link (objAddr c) defsOf = .ok segs defs uses → (o.segs.any Seg.bad) = false →
          (s.certOk o = false → answers (.installResidentImage c) s fun u => u.mem = s.mem ∧ u.mgmt = s.mgmt ∧
            (u.port c.port).stat = Stat.certificate.code ∧ (u.port c.port).busy = false) ∧
          (s.certOk o = true → defsOf.length + defs.length ≤ 65536 → answers (.installResidentImage c) s fun u =>
            u.mem = s.mem ∧ u.symbols = s.symbols ∧ (u.port c.port).stat = 0 ∧ (u.port c.port).busy = false ∧
            u.mgmt = { s.mgmt with stagedFw := some { image := img, segs := segs.map fun g => (g.vaddr, g.data) } }))
end

