-- ==== Sys2Proof/Laws/Block.lean ====
section
/-! SUPPORT. Reads of what has been written at a place that may lie anywhere, and what they say of the selection log and the
progress words (R185), whose place Config leaves open. -/

namespace Sys2Proof.Laws

open Machine

theorem read_getElem (m : List Host.Cell) (k n i : Nat) (h : i < (Memory.read m k n).length) :
    (Memory.read m k n)[i] = Memory.get m (k + i) := by
  induction n generalizing k i with
  | zero => simp [Memory.read] at h
  | succ n ih => cases i with
    | zero => simp [Memory.read]
    | succ i => simp [Memory.read, ih, Nat.add_assoc, Nat.add_comm 1 i]

/-- A part of a run is read as the part of what the run reads as. -/
theorem read_part (m : List Host.Cell) (k l i n : Nat) (h : i + n ≤ l) :
    Memory.read m (k + i) n = ((Memory.read m k l).drop i).take n := by
  refine List.ext_getElem (by simp; omega) fun j h1 h2 => ?_
  simp [read_getElem, Nat.add_assoc]

theorem bytes_poke_part (s : State) (k i n : Nat) (bs : List Byte) (h : i + n ≤ bs.length) :
    (s.poke k bs).bytes (k + i) n = (bs.drop i).take n := by
  rw [bytes_eq, read_part _ k bs.length i n h]
  exact congrArg (fun l => (l.drop i).take n) (read_write_self s.mem k bs)

theorem nat_poke_part (s : State) (k i n : Nat) (bs : List Byte) (h : i + n ≤ bs.length) :
    (s.poke k bs).nat (k + i) n = leNat ((bs.drop i).take n) := congrArg leNat (bytes_poke_part s k i n bs h)

theorem nat_poke_other (s : State) (k j n : Nat) (bs : List Byte) (h : j + n ≤ k ∨ k + bs.length ≤ j) :
    (s.poke k bs).nat j n = s.nat j n := by
  unfold State.nat
  rw [bytes_eq, bytes_eq]
  exact congrArg leNat (read_write_other s.mem k j n bs h)

/-- A log entry reads as it was written. -/
theorem logEntry_poke (s : State) (seq : Nat) (bs : List Byte) (hl : bs.length = 256) (hp : s.poison = []) :
    (s.poke (logEntryKey seq) bs).logEntry seq =
      if leNat (bs.take 4) ≠ seq then none
      else
        let kind := leNat ((bs.drop 4).take 1)
        some { seq, kind, queue := leNat ((bs.drop 5).take 1) % 64, slot := leNat ((bs.drop 8).take 4)
               record := if kind = 0 then slotWords ((bs.drop 128).take 128) else []
               map := if kind = 0 then 0 else BitVec.ofNat 640 (leNat ((bs.drop 128).take 80)) } := by
  have h0 := nat_poke_part s (logEntryKey seq) 0 4 bs (by omega)
  have hn : ¬ (s.poke (logEntryKey seq) bs).poisoned (logEntryKey seq) 256 = true := by simp [State.poisoned, State.poke, hp]
  simp only [Nat.add_zero, List.drop_zero] at h0
  simp only [State.logEntry, h0, hn, Bool.or_false, decide_eq_true_eq,
    nat_poke_part s (logEntryKey seq) 4 1 bs (by omega), nat_poke_part s (logEntryKey seq) 5 1 bs (by omega),
    nat_poke_part s (logEntryKey seq) 8 4 bs (by omega), nat_poke_part s (logEntryKey seq) 128 80 bs (by omega),
    bytes_poke_part s (logEntryKey seq) 128 128 bs (by omega)]

/-- The progress words lie behind the log's entries. -/
theorem progressOf_poke_log (s : State) (seq d : Nat) (bs : List Byte) (hl : bs.length = 256) :
    (s.poke (logEntryKey seq) bs).progressOf d = s.progressOf d := by
  have h := nat_poke_other s (logEntryKey seq) (progressKey d) 4 bs (by simp only [logEntryKey, progressKey]; omega)
  rw [State.progressOf, h]
  rfl

/-- A progress word reads as it was written. -/
theorem progressOf_poke (s : State) (d v : Nat) (h : s.logSeq ≠ 0) :
    (s.poke (progressKey d) (leBytes 4 v)).progressOf d = leNat (leBytes 4 v) := by
  have := nat_poke_part s (progressKey d) 0 4 (leBytes 4 v) (by simp [leBytes])
  simp only [State.progressOf, State.poke, h, if_false] at this ⊢
  simpa [leBytes] using this

/-- A die that has finished one entry finds its node by the completion pair. -/
theorem shareOf_first (s : State) (d ncc : Nat) (node : Option Word) (hp : s.progressOf d = 1) (hn : (s.share d 1).ncc = ncc)
    (ha : node.all (· = (s.share d 1).nodeId) = true) : s.shareOf d ncc node = some (s.share d 1) := by
  have hr : List.range (min 4096 1) = [0] := rfl
  rw [State.shareOf, hp, hr]
  simp [Option.filter, hn, ha]

/-- The log and the progress words are in die 0's device memory, before every other die's. -/
theorem progress_before_node (d e seq i : Nat) (hd : d < 32) (he : 0 < e) : progressKey d + 4 ≤ nodeKey e seq + i := by
  simp only [progressKey, logKey, nodeKey, blockKey, deviceKey]
  omega

end Sys2Proof.Laws
end

