-- ==== Sys2Proof/Laws/PerInstr.lean ====
section
/-! SUPPORT. One statement about every instruction: the encoder writes at most a slot word and its extension word
(R198, R332). -/

namespace Sys2Proof.Laws.Enc

/-- The encoder writes no word, one word, or a word and its extension. -/
def Statement (i : Instr) : Prop := (encode i).length ≤ 2

theorem words_length (w : Nat) (x : Option Nat) : (words w x).length ≤ 2 := by cases x <;> simp [words]
theorem tri_length (opc : Nat) (t : Tri) : (wrTri opc t).length ≤ 2 := words_length _ _
theorem imm_length (opc : Nat) (t : ImmF) : (wrImm opc t).length ≤ 2 := by unfold wrImm; split <;> simp
theorem land_length (opc : Nat) (t : LandF) : (wrLand opc t).length ≤ 2 := by unfold wrLand; split <;> simp
theorem store_length (opc : Nat) (t : StoreF) : (wrStore opc t).length ≤ 2 := by unfold wrStore; split <;> simp
theorem disp_length (opc : Nat) (t : DispF) : (wrDisp opc t).length ≤ 2 := by unfold wrDisp; split <;> simp
theorem one_le_two : 1 ≤ 2 := by decide
theorem zero_le_two : 0 ≤ 2 := by decide

theorem add (t : Tri) : Statement (.add t) := tri_length _ _
theorem addi (t : ImmF) : Statement (.addi t) := imm_length _ _
theorem sub (t : Tri) : Statement (.sub t) := tri_length _ _
theorem mul (t : Tri) : Statement (.mul t) := tri_length _ _
theorem mulh (t : Tri) : Statement (.mulh t) := tri_length _ _
theorem mulhn (t : Tri) : Statement (.mulhn t) := tri_length _ _
theorem and (t : Tri) : Statement (.and t) := tri_length _ _
theorem andi (t : ImmF) : Statement (.andi t) := imm_length _ _
theorem or (t : Tri) : Statement (.or t) := tri_length _ _
theorem ori (t : ImmF) : Statement (.ori t) := imm_length _ _
theorem xor (t : Tri) : Statement (.xor t) := tri_length _ _
theorem xori (t : ImmF) : Statement (.xori t) := imm_length _ _
theorem andn (t : Tri) : Statement (.andn t) := tri_length _ _
theorem min (t : Tri) : Statement (.min t) := tri_length _ _
theorem minn (t : Tri) : Statement (.minn t) := tri_length _ _
theorem max (t : Tri) : Statement (.max t) := tri_length _ _
theorem maxn (t : Tri) : Statement (.maxn t) := tri_length _ _
theorem abs (t : Tri) : Statement (.abs t) := tri_length _ _
theorem mov (t : Tri) : Statement (.mov t) := tri_length _ _
theorem movi (t : ImmF) : Statement (.movi t) := imm_length _ _
theorem shl (t : Tri) : Statement (.shl t) := tri_length _ _
theorem shli (t : ImmF) : Statement (.shli t) := imm_length _ _
theorem shr (t : Tri) : Statement (.shr t) := tri_length _ _
theorem shri (t : ImmF) : Statement (.shri t) := imm_length _ _
theorem sar (t : Tri) : Statement (.sar t) := tri_length _ _
theorem sari (t : ImmF) : Statement (.sari t) := imm_length _ _
theorem rol (t : Tri) : Statement (.rol t) := tri_length _ _
theorem clz (t : Tri) : Statement (.clz t) := tri_length _ _
theorem ctz (t : Tri) : Statement (.ctz t) := tri_length _ _
theorem popc (t : Tri) : Statement (.popc t) := tri_length _ _
theorem ext (t : Tri) : Statement (.ext t) := tri_length _ _
theorem ins (t : Tri) : Statement (.ins t) := tri_length _ _
theorem sel (t : Tri) : Statement (.sel t) := tri_length _ _
theorem cmp (cc : Cond) (t : Tri) : Statement (.cmp cc t) := tri_length _ _
theorem cmpi (cc : Cond) (t : ImmF) : Statement (.cmpi cc t) := imm_length _ _
theorem pand (t : Tri) : Statement (.pand t) := tri_length _ _
theorem por (t : Tri) : Statement (.por t) := tri_length _ _
theorem pxor (t : Tri) : Statement (.pxor t) := tri_length _ _
theorem pnot (t : Tri) : Statement (.pnot t) := tri_length _ _
theorem shrn (t : Tri) : Statement (.shrn t) := tri_length _ _
theorem shrs (t : Tri) : Statement (.shrs t) := tri_length _ _
theorem sats (t : Tri) : Statement (.sats t) := tri_length _ _
theorem divf (t : Tri) : Statement (.divf t) := tri_length _ _
theorem remf (t : Tri) : Statement (.remf t) := tri_length _ _
theorem rcpn (t : Tri) : Statement (.rcpn t) := tri_length _ _
theorem rsqn (t : Tri) : Statement (.rsqn t) := tri_length _ _
theorem rnd (t : Tri) : Statement (.rnd t) := tri_length _ _
theorem bra (t : DispF) : Statement (.bra t) := disp_length _ _
theorem brc (t : DispF) : Statement (.brc t) := disp_length _ _
theorem call (t : DispF) : Statement (.call t) := disp_length _ _
theorem brr (t : Tri) : Statement (.brr t) := tri_length _ _
theorem callr (t : Tri) : Statement (.callr t) := tri_length _ _
theorem ret (t : Tri) : Statement (.ret t) := tri_length _ _
theorem loop (t : ImmF) : Statement (.loop t) := imm_length _ _
theorem loopx (t : ImmF) : Statement (.loopx t) := imm_length _ _
theorem ld (z : LdKind) (t : LandF) : Statement (.ld z t) := land_length _ _
theorem st (z : MemSize) (t : StoreF) : Statement (.st z t) := store_length _ _
theorem lda (sc : Scope) (z : MemSize) (t : LandF) : Statement (.lda sc z t) := land_length _ _
theorem stl (sc : Scope) (z : MemSize) (t : StoreF) : Statement (.stl sc z t) := store_length _ _
theorem vld (t : LandF) : Statement (.vld t) := land_length _ _
theorem vst (t : StoreF) : Statement (.vst t) := store_length _ _
theorem vstDescriptor (t : StoreF) : Statement (.vstDescriptor t) := zero_le_two
theorem vlds (t : LandF) : Statement (.vlds t) := land_length _ _
theorem atom (op : AtomOp) (sc : Scope) (o : Order) (t : Tri) : Statement (.atom op sc o t) := tri_length _ _
theorem cas (sc : Scope) (o : Order) (t : Tri) : Statement (.cas sc o t) := tri_length _ _
theorem fence (sc : Scope) (o : Order) (t : NoneF) : Statement (.fence sc o t) := one_le_two
theorem tlook (t : Tri) : Statement (.tlook t) := tri_length _ _
theorem tset (t : Tri) : Statement (.tset t) := tri_length _ _
theorem tclr (t : Tri) : Statement (.tclr t) := tri_length _ _
theorem tinv (t : Tri) : Statement (.tinv t) := tri_length _ _
theorem spill (t : Tri) : Statement (.spill t) := tri_length _ _
theorem unspill (t : Tri) : Statement (.unspill t) := tri_length _ _
theorem waitt (t : ImmF) : Statement (.waitt t) := imm_length _ _
theorem readt (t : ImmF) : Statement (.readt t) := imm_length _ _
theorem bara (t : LandF) : Statement (.bara t) := land_length _ _
theorem barw (t : Tri) : Statement (.barw t) := tri_length _ _
theorem barm (t : Tri) : Statement (.barm t) := tri_length _ _
theorem cropen (t : ImmF) : Statement (.cropen t) := imm_length _ _
theorem crclose (t : NoneF) : Statement (.crclose t) := one_le_two
theorem trap (t : ImmF) : Statement (.trap t) := imm_length _ _
theorem track (t : NoneF) : Statement (.track t) := one_le_two
theorem tret (t : NoneF) : Statement (.tret t) := one_le_two
theorem csrr (t : ImmF) : Statement (.csrr t) := imm_length _ _
theorem csrw (t : ImmF) : Statement (.csrw t) := imm_length _ _
theorem csrs (t : ImmF) : Statement (.csrs t) := imm_length _ _
theorem csrc (t : ImmF) : Statement (.csrc t) := imm_length _ _
theorem stageCsrWrite (t : ImmF) : Statement (.stageCsrWrite t) := imm_length _ _
theorem cbtbaseWrite (t : ImmF) : Statement (.cbtbaseWrite t) := imm_length _ _
theorem evpost (t : Tri) : Statement (.evpost t) := tri_length _ _
theorem yield (t : ImmF) : Statement (.yield t) := imm_length _ _
theorem endTask (t : NoneF) : Statement (.endTask t) := one_le_two
theorem icinv (t : Tri) : Statement (.icinv t) := tri_length _ _
theorem lsupd (t : Tri) : Statement (.lsupd t) := tri_length _ _
theorem vadd (w : Width) (t : Tri) : Statement (.vadd w t) := tri_length _ _
theorem vsub (w : Width) (t : Tri) : Statement (.vsub w t) := tri_length _ _
theorem vadds (w : Width) (t : Tri) : Statement (.vadds w t) := tri_length _ _
theorem vsubs (w : Width) (t : Tri) : Statement (.vsubs w t) := tri_length _ _
theorem vmul (w : Width) (t : Tri) : Statement (.vmul w t) := tri_length _ _
theorem vmulh (w : Width) (t : Tri) : Statement (.vmulh w t) := tri_length _ _
theorem vmulsh (w : Width) (t : Tri) : Statement (.vmulsh w t) := tri_length _ _
theorem vmac (w : Width) (t : Tri) : Statement (.vmac w t) := tri_length _ _
theorem vmin (w : Width) (t : Tri) : Statement (.vmin w t) := tri_length _ _
theorem vmax (w : Width) (t : Tri) : Statement (.vmax w t) := tri_length _ _
theorem vabs (w : Width) (t : Tri) : Statement (.vabs w t) := tri_length _ _
theorem vneg (w : Width) (t : Tri) : Statement (.vneg w t) := tri_length _ _
theorem vand (w : Width) (t : Tri) : Statement (.vand w t) := tri_length _ _
theorem vor (w : Width) (t : Tri) : Statement (.vor w t) := tri_length _ _
theorem vxor (w : Width) (t : Tri) : Statement (.vxor w t) := tri_length _ _
theorem vnot (w : Width) (t : Tri) : Statement (.vnot w t) := tri_length _ _
theorem vshl (w : Width) (t : Tri) : Statement (.vshl w t) := tri_length _ _
theorem vshr (w : Width) (t : Tri) : Statement (.vshr w t) := tri_length _ _
theorem vsar (w : Width) (t : Tri) : Statement (.vsar w t) := tri_length _ _
theorem vshrs (w : Width) (t : Tri) : Statement (.vshrs w t) := tri_length _ _
theorem vshrn (w : Width) (t : Tri) : Statement (.vshrn w t) := tri_length _ _
theorem vsat (w : Width) (t : Tri) : Statement (.vsat w t) := tri_length _ _
theorem vwid (w : Width) (t : Tri) : Statement (.vwid w t) := tri_length _ _
theorem vpack (w : Width) (t : Tri) : Statement (.vpack w t) := tri_length _ _
theorem vcmp (cc : Cond) (w : Width) (t : Tri) : Statement (.vcmp cc w t) := tri_length _ _
theorem vsel (w : Width) (t : Tri) : Statement (.vsel w t) := tri_length _ _
theorem vbcast (w : Width) (t : Tri) : Statement (.vbcast w t) := tri_length _ _
theorem vperm (w : Width) (t : Tri) : Statement (.vperm w t) := tri_length _ _
theorem vshuf (w : Width) (t : Tri) : Statement (.vshuf w t) := tri_length _ _
theorem vrot (w : Width) (t : Tri) : Statement (.vrot w t) := tri_length _ _
theorem vmovg (w : Width) (t : Tri) : Statement (.vmovg w t) := tri_length _ _
theorem vins (w : Width) (t : Tri) : Statement (.vins w t) := tri_length _ _
theorem vredadd (w : Width) (t : Tri) : Statement (.vredadd w t) := tri_length _ _
theorem vredmax (w : Width) (t : Tri) : Statement (.vredmax w t) := tri_length _ _
theorem vredmin (w : Width) (t : Tri) : Statement (.vredmin w t) := tri_length _ _
theorem vcensus (w : Width) (t : Tri) : Statement (.vcensus w t) := tri_length _ _
theorem vexp2 (w : Width) (t : Tri) : Statement (.vexp2 w t) := tri_length _ _
theorem vlut (w : Width) (t : Tri) : Statement (.vlut w t) := tri_length _ _
theorem vhad (w : Width) (t : Tri) : Statement (.vhad w t) := tri_length _ _
theorem vcbdec (w : Width) (t : Tri) : Statement (.vcbdec w t) := tri_length _ _
theorem vclz (w : Width) (t : Tri) : Statement (.vclz w t) := tri_length _ _
theorem viota (w : Width) (t : Tri) : Statement (.viota w t) := tri_length _ _
theorem kand (t : Tri) : Statement (.kand t) := tri_length _ _
theorem kor (t : Tri) : Statement (.kor t) := tri_length _ _
theorem knot (t : Tri) : Statement (.knot t) := tri_length _ _
theorem mldn (t : Tri) : Statement (.mldn t) := tri_length _ _
theorem mldw (t : Tri) : Statement (.mldw t) := tri_length _ _
theorem mlds (t : Tri) : Statement (.mlds t) := tri_length _ _
theorem mcps (t : ImmF) : Statement (.mcps t) := imm_length _ _
theorem mrun (t : Tri) : Statement (.mrun t) := tri_length _ _
theorem mdrain (t : Tri) : Statement (.mdrain t) := tri_length _ _
theorem mclr (t : Tri) : Statement (.mclr t) := tri_length _ _
theorem maccmv (t : Tri) : Statement (.maccmv t) := tri_length _ _
theorem mregrow (t : Tri) : Statement (.mregrow t) := tri_length _ _
theorem mpois (t : Tri) : Statement (.mpois t) := tri_length _ _
theorem sbind (t : Tri) : Statement (.sbind t) := tri_length _ _
theorem spat (t : Tri) : Statement (.spat t) := tri_length _ _
theorem sfree (t : Tri) : Statement (.sfree t) := tri_length _ _
theorem sstat (t : Tri) : Statement (.sstat t) := tri_length _ _
theorem dset (t : Tri) : Statement (.dset t) := tri_length _ _
theorem dget (t : Tri) : Statement (.dget t) := tri_length _ _
theorem dsetf (t : Tri) : Statement (.dsetf t) := tri_length _ _
theorem dgetf (t : Tri) : Statement (.dgetf t) := tri_length _ _
theorem cpy (t : Tri) : Statement (.cpy t) := tri_length _ _
theorem cpym (t : Tri) : Statement (.cpym t) := tri_length _ _
theorem stage (t : ImmF) : Statement (.stage t) := imm_length _ _
theorem gridld (t : Tri) : Statement (.gridld t) := tri_length _ _
theorem gridsc (t : Tri) : Statement (.gridsc t) := tri_length _ _
theorem wput (t : Tri) : Statement (.wput t) := tri_length _ _
theorem wget (t : Tri) : Statement (.wget t) := tri_length _ _
theorem coll (t : Tri) : Statement (.coll t) := tri_length _ _
theorem spawn (t : Tri) : Statement (.spawn t) := tri_length _ _
theorem lxCpy (r : RType) : Statement (.lxCpy r) := one_le_two
theorem lxSbind (r : RType) : Statement (.lxSbind r) := one_le_two
theorem lxSpush (r : RType) : Statement (.lxSpush r) := one_le_two
theorem lxSpop (r : RType) : Statement (.lxSpop r) := one_le_two
theorem lxSstat (r : RType) : Statement (.lxSstat r) := one_le_two
theorem lxStage (r : RType) : Statement (.lxStage r) := one_le_two
theorem lxXbase (r : RType) : Statement (.lxXbase r) := one_le_two
theorem lxEv (r : RType) : Statement (.lxEv r) := one_le_two
theorem lxEnd (r : RType) : Statement (.lxEnd r) := one_le_two
theorem lxWaitt (i : IType) : Statement (.lxWaitt i) := one_le_two
theorem lxReadt (i : IType) : Statement (.lxReadt i) := one_le_two
theorem lxReadth (i : IType) : Statement (.lxReadth i) := one_le_two
theorem lxBind (r : RType) : Statement (.lxBind r) := one_le_two
theorem lxRel (r : RType) : Statement (.lxRel r) := one_le_two
theorem lxJwr (r : RType) : Statement (.lxJwr r) := one_le_two
theorem lxAsid (r : RType) : Statement (.lxAsid r) := one_le_two
theorem lxInval (r : RType) : Statement (.lxInval r) := one_le_two
theorem lxMark (r : RType) : Statement (.lxMark r) := one_le_two
theorem lxAnsw (r : RType) : Statement (.lxAnsw r) := one_le_two
theorem lxEvget (r : RType) : Statement (.lxEvget r) := one_le_two
theorem lxEvput (r : RType) : Statement (.lxEvput r) := one_le_two
theorem lxKscan (r : RType) : Statement (.lxKscan r) := one_le_two
theorem riscvLoad (z : RvLoad) (i : IType) : Statement (.riscvLoad z i) := one_le_two
theorem riscvStore (z : MemSize) (i : SType) : Statement (.riscvStore z i) := one_le_two
theorem riscvAmo (op : RvAmo) (dbl aq rl : Bool) (r : RType) : Statement (.riscvAmo op dbl aq rl r) := one_le_two
theorem riscvFence (fm pred succ : Nat) : Statement (.riscvFence fm pred succ) := one_le_two
theorem wfi : Statement (.wfi) := one_le_two
theorem yieldExpiry (core ctx : Nat) : Statement (.yieldExpiry core ctx) := zero_le_two
theorem fixedResult (core ctx : Nat) : Statement (.fixedResult core ctx) := zero_le_two
theorem returnArrival (id : Nat) : Statement (.returnArrival id) := zero_le_two
theorem landing (core ctx : Nat) : Statement (.landing core ctx) := zero_le_two
theorem lateArrival (id : Nat) : Statement (.lateArrival id) := zero_le_two
theorem lossCountDue (core ctx : Nat) : Statement (.lossCountDue core ctx) := zero_le_two
theorem engineCompletion (core : Nat) (e : Engine) : Statement (.engineCompletion core e) := zero_le_two
theorem taskBind (core : Nat) : Statement (.taskBind core) := zero_le_two
theorem spawnDelivery : Statement (.spawnDelivery) := zero_le_two
theorem helperStart (core : Nat) (storer : Bool) : Statement (.helperStart core storer) := zero_le_two
theorem scratchpadAccess (id : Nat) : Statement (.scratchpadAccess id) := zero_le_two
theorem ringAccess (id : Nat) : Statement (.ringAccess id) := zero_le_two
theorem mtuAccess (id : Nat) : Statement (.mtuAccess id) := zero_le_two
theorem trackedPacketArrival (id : Nat) : Statement (.trackedPacketArrival id) := zero_le_two
theorem appliedAckSend (home src : Nat) : Statement (.appliedAckSend home src) := zero_le_two
theorem appliedAckArrival (src home : Nat) : Statement (.appliedAckArrival src home) := zero_le_two
theorem windowPutArrival (p : WinPacket) : Statement (.windowPutArrival p) := zero_le_two
theorem windowPutApplied (n : Nat) : Statement (.windowPutApplied n) := zero_le_two
theorem windowGetArrival (p : WinPacket) : Statement (.windowGetArrival p) := zero_le_two
theorem putAckArrival (core wp num : Nat) (poison : Bool) : Statement (.putAckArrival core wp num poison) := zero_le_two
theorem nodeSelection : Statement (.nodeSelection) := zero_le_two
theorem logEntryDistribution (die : Nat) : Statement (.logEntryDistribution die) := zero_le_two
theorem offlineMapApply (die : Nat) : Statement (.offlineMapApply die) := zero_le_two
theorem taskEndRecord (die : Nat) : Statement (.taskEndRecord die) := zero_le_two
theorem queueSuspendBoundary (q : Nat) : Statement (.queueSuspendBoundary q) := zero_le_two
theorem eventRecordPost (die : Nat) : Statement (.eventRecordPost die) := zero_le_two
theorem portRecordDelivery (port : Nat) : Statement (.portRecordDelivery port) := zero_le_two
theorem reliefCopyDone (cl : Nat) : Statement (.reliefCopyDone cl) := zero_le_two
theorem scanPass (cl : Nat) : Statement (.scanPass cl) := zero_le_two
theorem scanFail (cl : Nat) : Statement (.scanFail cl) := zero_le_two
theorem quiesceReached : Statement (.quiesceReached) := zero_le_two
theorem captureDone : Statement (.captureDone) := zero_le_two
theorem rollbackRestoreDone : Statement (.rollbackRestoreDone) := zero_le_two
theorem switchForward (p : Packet) : Statement (.switchForward p) := zero_le_two
theorem fabricPacketArrival (p : Packet) : Statement (.fabricPacketArrival p) := zero_le_two
theorem e2eAckSend (src sdie : Nat) : Statement (.e2eAckSend src sdie) := zero_le_two
theorem daymarkSwitch (d : Nat) : Statement (.daymarkSwitch d) := zero_le_two
theorem powerOn : Statement (.powerOn) := zero_le_two
theorem rebuildDone : Statement (.rebuildDone) := zero_le_two
theorem streamElementArrival (core ctx q : Nat) : Statement (.streamElementArrival core ctx q) := zero_le_two
theorem cpymFollowOn (core ch : Nat) : Statement (.cpymFollowOn core ch) := zero_le_two
theorem keeperLinkReport (face link : Nat) : Statement (.keeperLinkReport face link) := zero_le_two
theorem stagingConfirmed (pkg : Nat) : Statement (.stagingConfirmed pkg) := zero_le_two
theorem exitFromPowerGating (core : Nat) : Statement (.exitFromPowerGating core) := zero_le_two
theorem linkResendLimit (face link : Nat) : Statement (.linkResendLimit face link) := zero_le_two
theorem reliefMove (cl : Nat) : Statement (.reliefMove cl) := zero_le_two
theorem pageWalk (asid va : Nat) : Statement (.pageWalk asid va) := zero_le_two
theorem hactUnwind (core ctx : Nat) : Statement (.hactUnwind core ctx) := zero_le_two
theorem hactFail (core ctx : Nat) : Statement (.hactFail core ctx) := zero_le_two
theorem rowFault (die ctl row : Nat) : Statement (.rowFault die ctl row) := zero_le_two
theorem patrolScrub (die : Nat) : Statement (.patrolScrub die) := zero_le_two
theorem cxlPortDown (port : Nat) : Statement (.cxlPortDown port) := zero_le_two
theorem distributorHandover (die mcause : Nat) : Statement (.distributorHandover die mcause) := zero_le_two
theorem distributionLost (die mcause : Nat) : Statement (.distributionLost die mcause) := zero_le_two
theorem clockGate (core : Nat) : Statement (.clockGate core) := zero_le_two
theorem powerGate (core : Nat) : Statement (.powerGate core) := zero_le_two
theorem fogReport (core : Nat) : Statement (.fogReport core) := zero_le_two
theorem rotationStep (cl : Nat) : Statement (.rotationStep cl) := zero_le_two
theorem linkFlit (face link : Nat) (crcOk : Bool) : Statement (.linkFlit face link crcOk) := zero_le_two
theorem linkLockLoss (face link : Nat) : Statement (.linkLockLoss face link) := zero_le_two
theorem heartbeatTimeout (face link : Nat) : Statement (.heartbeatTimeout face link) := zero_le_two
theorem e2eAckArrival (sdie dst cum : Nat) (got : List Nat) : Statement (.e2eAckArrival sdie dst cum got) := zero_le_two
theorem replayTimeout (sdie dst : Nat) : Statement (.replayTimeout sdie dst) := zero_le_two
theorem daymarkStage (d : Nat) (table : List Nat) : Statement (.daymarkStage d table) := zero_le_two
theorem keeperTimeout : Statement (.keeperTimeout) := zero_le_two
theorem combiningTimeout (key : Nat) : Statement (.combiningTimeout key) := zero_le_two
theorem apertureRead (port : Nat) (ordered : Bool) (off size : Nat) : Statement (.apertureRead port ordered off size) := zero_le_two
theorem apertureWrite (port : Nat) (ordered : Bool) (off : Nat) (data : List Byte) : Statement (.apertureWrite port ordered off data) := zero_le_two
theorem bridgeLinkLost (port : Nat) : Statement (.bridgeLinkLost port) := zero_le_two
theorem lampTake (port : Nat) : Statement (.lampTake port) := zero_le_two
theorem lampDrop (port : Nat) : Statement (.lampDrop port) := zero_le_two
theorem qtailWrite (port q v : Nat) : Statement (.qtailWrite port q v) := zero_le_two
theorem evheadWrite (port v : Nat) : Statement (.evheadWrite port v) := zero_le_two
theorem brerrClear (port : Nat) : Statement (.brerrClear port) := zero_le_two
theorem registerWrite (port off v : Nat) : Statement (.registerWrite port off v) := zero_le_two
theorem queueCreate (c : Cmd) : Statement (.queueCreate c) := zero_le_two
theorem queueDestroy (c : Cmd) : Statement (.queueDestroy c) := zero_le_two
theorem queueSuspend (c : Cmd) : Statement (.queueSuspend c) := zero_le_two
theorem queueResume (c : Cmd) : Statement (.queueResume c) := zero_le_two
theorem queueTransfer (c : Cmd) : Statement (.queueTransfer c) := zero_le_two
theorem kick (c : Cmd) : Statement (.kick c) := zero_le_two
theorem offlineMap (c : Cmd) : Statement (.offlineMap c) := zero_le_two
theorem contextAction (c : Cmd) : Statement (.contextAction c) := zero_le_two
theorem quiesce (c : Cmd) : Statement (.quiesce c) := zero_le_two
theorem capture (c : Cmd) : Statement (.capture c) := zero_le_two
theorem commit (c : Cmd) : Statement (.commit c) := zero_le_two
theorem rollback (c : Cmd) : Statement (.rollback c) := zero_le_two
theorem assumeIdentity (c : Cmd) : Statement (.assumeIdentity c) := zero_le_two
theorem rebuild (c : Cmd) : Statement (.rebuild c) := zero_le_two
theorem registerGroup (c : Cmd) : Statement (.registerGroup c) := zero_le_two
theorem deregisterGroup (c : Cmd) : Statement (.deregisterGroup c) := zero_le_two
theorem registerWindow (c : Cmd) : Statement (.registerWindow c) := zero_le_two
theorem deregisterWindow (c : Cmd) : Statement (.deregisterWindow c) := zero_le_two
theorem loadObject (c : Cmd) : Statement (.loadObject c) := zero_le_two
theorem unloadObject (c : Cmd) : Statement (.unloadObject c) := zero_le_two
theorem installResidentImage (c : Cmd) : Statement (.installResidentImage c) := zero_le_two
theorem packageReset (c : Cmd) : Statement (.packageReset c) := zero_le_two
theorem configurationImageChange (c : Cmd) : Statement (.configurationImageChange c) := zero_le_two
theorem registerAddressSpace (c : Cmd) : Statement (.registerAddressSpace c) := zero_le_two
theorem tearDownAddressSpace (c : Cmd) : Statement (.tearDownAddressSpace c) := zero_le_two
theorem translationInvalidate (c : Cmd) : Statement (.translationInvalidate c) := zero_le_two
theorem faultAnswer (c : Cmd) : Statement (.faultAnswer c) := zero_le_two
theorem physicalWrite (c : Cmd) : Statement (.physicalWrite c) := zero_le_two
theorem physicalRead (c : Cmd) : Statement (.physicalRead c) := zero_le_two
theorem unknownCommand (code : Nat) (c : Cmd) : Statement (.unknownCommand code c) := zero_le_two
theorem getVersion (port : Nat) : Statement (.getVersion port) := zero_le_two
theorem getCapabilities (port : Nat) : Statement (.getCapabilities port) := zero_le_two
theorem negotiateAlgorithms (port : Nat) : Statement (.negotiateAlgorithms port) := zero_le_two
theorem getDigests (port : Nat) : Statement (.getDigests port) := zero_le_two
theorem getCertificate (port : Nat) : Statement (.getCertificate port) := zero_le_two
theorem challenge (port : Nat) : Statement (.challenge port) := zero_le_two
theorem getMeasurements (port : Nat) : Statement (.getMeasurements port) := zero_le_two
theorem supplyOutOfRange (inRange : Bool) : Statement (.supplyOutOfRange inRange) := zero_le_two
theorem throttleDown (die : Nat) (power : Bool) : Statement (.throttleDown die power) := zero_le_two
theorem throttleRaise (die : Nat) (power : Bool) : Statement (.throttleRaise die power) := zero_le_two
theorem thermalTrip (die celsius : Nat) : Statement (.thermalTrip die celsius) := zero_le_two
theorem bridgeLinkReturn (port : Nat) : Statement (.bridgeLinkReturn port) := zero_le_two
theorem parityRecomputed : Statement (.parityRecomputed) := zero_le_two
theorem thrmRead (port : Nat) : Statement (.thrmRead port) := zero_le_two

end Sys2Proof.Laws.Enc
end

