-- ==== Sys2Proof/Machine/Plezar.lean ====
section
/-! DEFINITION. The Plezar form (R404-R407): the words of a move, which objects a translator rejects, what a move does to
the abstract ports, and the native word of a trigger. Only the host's translator reads it; a core never does. -/

namespace Sys2Proof.Machine

/-- A move (R405). Units are bytes, class in [7:4]; `imm` is the second word of an immediate move. -/
structure PlzMove where
  su : Nat
  sp : Nat
  du : Nat
  dp : Nat
  guard : Nat
  opc : Nat
  imm : Option Nat := none
  deriving DecidableEq, Repr

/-- A trigger with the port values it takes (R406): `d` and `d2` are what o and o2 held. -/
structure PlzTrigger where
  unit : Nat
  opc : Nat
  a : Nat
  b : Nat
  c : Nat
  x : Nat
  d : Nat := 0
  d2 : Nat := 0
  deriving DecidableEq, Repr

/-- What a native operation gives: the results that it writes, to o and, for a pair, to o2. -/
structure PlzOut where
  o : Option Nat := none
  o2 : Option Nat := none
  deriving DecidableEq, Repr

/-- The port that triggers. -/
def plzTrig : Nat := 0x10

/-- Whether a unit has a port: a, b, c, x, o, o2 of classes 0 to 5, the file ports of classes 7 to 10 (R404). -/
def plzPort (unit port : Nat) : Bool :=
  match unit / 16 with
  | 0 | 1 | 2 | 3 | 4 | 5 => [0, 1, 2, 3, 8, 9].contains port
  | 7 | 8 | 9 => port < 256
  | 10 => port < 8
  | _ => false

def PlzMove.triggers (m : PlzMove) : Bool := m.dp = plzTrig && m.du / 16 < 6

/-- LOOP and LOOPX have no trigger (R406). -/
def plzNative (unit opc : Nat) : Bool := unit / 16 = 0 && (opc = 0x86 || opc = 0x87)

/-- The fields of a move word; none when it breaks R404 or R405. -/
def plzWord (w : Nat) : Option PlzMove :=
  let m : PlzMove := { su := fld w 0 8, sp := fld w 8 8, du := fld w 16 8, dp := fld w 24 8, guard := fld w 32 4, opc := fld w 40 8 }
  if fld w 36 4 = 0 && w < 2 ^ 48 && (m.su = 0xFF || plzPort m.su m.sp) && (m.triggers || plzPort m.du m.dp) &&
      (m.triggers || m.opc = 0) && !(m.triggers && plzNative m.du m.opc) then some m
  else none

/-- The moves of an object; none when a word is none or the value of an immediate move lacks. -/
def plzMoves : List Nat → Option (List PlzMove)
  | [] => some []
  | w :: r =>
    match plzWord w with
    | none => none
    | some m =>
      if m.su = 0xFF then
        match r with
        | [] => none
        | v :: t => (plzMoves t).map fun l => { m with imm := some v } :: l
      else (plzMoves r).map fun l => m :: l

/-- What a port reads: G-file port 0 reads 0, P-file port 0 reads 1 (R404). -/
def plzRead (ports : Tab Nat) (unit port : Nat) : Nat :=
  if unit / 16 = 7 && port = 0 then 0
  else if unit / 16 = 9 && port = 0 then 1
  else ports.get (unit * 256 + port) 0

/-- The branches and calls among scalar triggers (R242, R243, R406): the move index that one names, in the extension word
for a displacement form and in port a for a register form. -/
def PlzTrigger.target (t : PlzTrigger) : Option Nat :=
  if t.unit / 16 ≠ 0 then none
  else if t.opc = 0x80 || t.opc = 0x81 || t.opc = 0x83 then some t.x
  else if t.opc = 0x82 || t.opc = 0x84 || t.opc = 0x85 then some t.a
  else none

/-- The port that a call writes its return index to: G-file port 31, or o (R242, R243). -/
def PlzTrigger.link (t : PlzTrigger) : Option Nat :=
  if t.unit / 16 ≠ 0 then none
  else if t.opc = 0x83 then some (0x70 * 256 + 31) else if t.opc = 0x84 then some (t.unit * 256 + 8) else none

/-- A run of an object: the ports, the index of the next move, the triggers done. -/
structure PlzRun where
  ports : Tab Nat
  pc : Nat := 0
  done : List PlzTrigger := []
  deriving DecidableEq, Repr

/-- A value for a port, where there is one. -/
def setSome (ports : Tab Nat) (k : Nat) : Option Nat → Tab Nat
  | some v => ports.set k v
  | none => ports

/-- One move (R406): a guard that reads 0 leaves it undone; a trigger writes port b, takes a, b, c, x and, as D, what o and
o2 hold, then writes its results. `op` is the native operation. A branch goes to the move that it names and has no shadow
(R407); a call's return index is that of the next move. -/
def PlzRun.move (op : PlzTrigger → PlzOut) (s : PlzRun) (m : PlzMove) : PlzRun :=
  if plzRead s.ports 0x90 m.guard = 0 then { s with pc := s.pc + 1 }
  else
    let v := m.imm.getD (plzRead s.ports m.su m.sp)
    if m.triggers then
      let u := m.du * 256
      let p := s.ports.set (u + 1) v
      let t : PlzTrigger := { unit := m.du, opc := m.opc, a := p.get u 0, b := v, c := p.get (u + 2) 0, x := p.get (u + 3) 0
                              d := p.get (u + 8) 0, d2 := p.get (u + 9) 0 }
      let out := op t
      let p1 := setSome (setSome p (u + 8) out.o) (u + 9) out.o2
      let p2 := match t.link with | some k => p1.set k (s.pc + 1) | none => p1
      { ports := p2, pc := t.target.getD (s.pc + 1), done := s.done ++ [t] }
    else { s with ports := s.ports.set (m.du * 256 + m.dp) v, pc := s.pc + 1 }

/-- A run of at most `n` moves; it ends past the last move. -/
def PlzRun.run (op : PlzTrigger → PlzOut) (ms : List PlzMove) : Nat → PlzRun → PlzRun
  | 0, s => s
  | n + 1, s => match ms[s.pc]? with | none => s | some m => PlzRun.run op ms n (s.move op m)

/-- The ports at entry: G-file ports 1 to 11 hold what R158 gives a context's G1 to G11. -/
def plzEntry (k : Ctx) : Tab Nat := (List.range 11).foldl (fun p i => p.set (0x70 * 256 + i + 1) (k.gAt (i + 1)).val.toNat) []

/-- The operations whose extension word is of the LAND format: LD, LDA, VLD, VLDS and BARA (R220). -/
def plzLand (unit opc : Nat) : Bool :=
  if unit / 16 = 1 then opc < 8 || (0x10 ≤ opc && opc < 0x20) || opc = 0x30 || opc = 0x32
  else unit / 16 = 5 && opc = 0x03

/-- A trigger that R406 allows: LAND formats leave x [11:0] 0, and no CSR operation names ROTB. The selector is read
from x, or from b where x is 0 (DESIGN CHOICE, log entry 56). -/
def PlzTrigger.ok (t : PlzTrigger) : Bool :=
  (!plzLand t.unit t.opc || t.x % 2 ^ 12 = 0) &&
    !(t.unit / 16 = 5 && 0x0B ≤ t.opc && t.opc ≤ 0x0E && (if t.x = 0 then t.b else t.x) % 128 = 0x40)

/-- Whether a branch names the index of a move that triggers (R406). -/
def PlzTrigger.goesTo (ms : List PlzMove) (t : PlzTrigger) : Bool :=
  match t.target with
  | none => true
  | some n => (ms[n]?).any PlzMove.triggers

/-- Whether a translator takes an object: every word is a move, and every trigger reached in `n` moves from entry is allowed
and, for a branch, names a trigger (R406, R407). -/
def plzAccepts (op : PlzTrigger → PlzOut) (ports : Tab Nat) (n : Nat) (ws : List Nat) : Bool :=
  match plzMoves ws with
  | none => false
  | some ms => (PlzRun.run op ms n { ports }).done.all fun t => t.ok && t.goesTo ms

/-- The order a translation keeps: the triggers on memory, matrix, transfer and control units (R407). -/
def plzFixed (ts : List PlzTrigger) : List PlzTrigger := ts.filter fun t => [1, 3, 4, 5].contains (t.unit / 16)

/-- Whether the registers of the file units (R404) hold the same. -/
def plzSameFiles (p q : Tab Nat) : Bool :=
  (p ++ q).all fun x => x.1 / 2 ^ 12 < 7 || p.get x.1 0 = q.get x.1 0

/-- Whether moves without a branch may be put in another order (R407): the same moves, in which every trigger takes the port
values that it took before, so that its results are the same; the triggers on memory, matrix, transfer and control units
in the same order; and at the end every file port as before. -/
def plzReorders (op : PlzTrigger → PlzOut) (ports : Tab Nat) (before after : List PlzMove) : Bool :=
  let a := PlzRun.run op before before.length { ports }
  let b := PlzRun.run op after after.length { ports }
  before.isPerm after && a.done.all (fun t => t.target.isNone) && a.done.isPerm b.done && plzFixed a.done = plzFixed b.done &&
    plzSameFiles a.ports b.ports

/-- The slots a class may be bound to (R404, R220). -/
def plzSlots (unit : Nat) : List Nat :=
  match unit / 16 with
  | 0 => [0, 1]
  | 1 => [2]
  | 2 => [3, 4]
  | 3 => [5]
  | 4 => [6]
  | 5 => [7]
  | _ => []

/-- The native slot word of a TRI trigger whose operands a translator bound to registers d, a, b of the G file. -/
def plzNativeWord (opc guard d a b : Nat) : Nat :=
  opc * 2 ^ 24 + guard * 2 ^ 20 + d * 2 ^ 14 + 2 ^ 13 + a * 2 ^ 7 + 2 ^ 6 + b

end Sys2Proof.Machine
end

