-- ==== Sys2Proof/Tests/Slice0.lean ====
section
/-! SUPPORT. Small tests: what WellFormed refuses, words and worked examples of the spec, and a witness that meets the
hypotheses of each statement. -/

namespace Sys2Proof.Tests

open Machine

set_option Elab.async false

/-! ## What WellFormed refuses: one ill-formed term for each check -/

def tri : Tri := { slot := 0, pred := 0, d := 1, ba := false, a := 2, bb := false, b := 3, ext := none }
def imm : ImmF := { slot := 0, pred := 0, d := 1, ba := false, a := 2, imm := 5, long := false }
def land : LandF := { slot := 2, pred := 0, d := 1, ba := false, a := 2, land := 40, disp := 0, long := false }
def stor : StoreF := { slot := 2, pred := 0, src := 1, ba := false, a := 2, bs := false, off := -32, long := false }
def disp : DispF := { slot := 1, pred := 0, disp := -2, long := false }
def bare : NoneF := { slot := 7, pred := 0 }
def sys : ImmF := { imm with slot := 7 }

theorem test_wf_tri : (Instr.add tri).wf = true ∧ (Instr.add { tri with slot := 2 }).wf = false ∧
    (Instr.add { tri with pred := 16 }).wf = false ∧ (Instr.add { tri with d := 64 }).wf = false ∧
    (Instr.add { tri with a := 64 }).wf = false ∧ (Instr.add { tri with b := 64 }).wf = false ∧
    (Instr.sub { tri with b := 0, ext := some (2 ^ 32) }).wf = false := by decide
theorem test_wf_imm : (Instr.addi imm).wf = true ∧ (Instr.addi { imm with imm := 64 }).wf = false ∧
    (Instr.addi { imm with imm := 2 ^ 31, long := true }).wf = false ∧ (Instr.addi { imm with slot := 3 }).wf = false := by decide
theorem test_wf_land : (Instr.vld land).wf = true ∧ (Instr.vld { land with land := 0 }).wf = false ∧
    (Instr.vld { land with land := 65 }).wf = false ∧ (Instr.vld { land with land := 4096, long := true }).wf = false ∧
    (Instr.vld { land with disp := 4 }).wf = false ∧ (Instr.vld { land with slot := 0 }).wf = false := by decide
theorem test_wf_store : (Instr.vst stor).wf = true ∧ (Instr.vst { stor with off := -33 }).wf = false ∧
    (Instr.vst { stor with off := 2 ^ 31, long := true }).wf = false ∧ (Instr.vst { stor with src := 64 }).wf = false := by decide
theorem test_wf_disp : (Instr.bra disp).wf = true ∧ (Instr.bra { disp with disp := 2 ^ 19 }).wf = false ∧
    (Instr.bra { disp with slot := 0 }).wf = false := by decide
theorem test_wf_none : (Instr.tret bare).wf = true ∧ (Instr.tret { bare with slot := 6 }).wf = false ∧
    (Instr.tret { bare with pred := 16 }).wf = false := by decide
theorem test_wf_unused : (Instr.abs { tri with b := 1 }).wf = false ∧ (Instr.abs { tri with b := 0, bb := true }).wf = false ∧
    (Instr.rnd { tri with b := 0 }).wf = false ∧ (Instr.brr { tri with slot := 1, b := 0 }).wf = false ∧
    (Instr.movi imm).wf = false ∧ (Instr.trap { sys with a := 0 }).wf = false := by decide
theorem test_wf_extension : (Instr.add { tri with ext := some 1 }).wf = false ∧ (Instr.sel tri).wf = false ∧
    (Instr.sel { tri with ext := some 16 }).wf = false ∧ (Instr.sub { tri with ext := some 1 }).wf = false ∧
    (Instr.rol { tri with b := 0, ext := some 64 }).wf = false ∧ (Instr.vadd .i8 { tri with slot := 3, ext := some 8 }).wf = false := by
  decide
theorem test_wf_selectors : (Instr.csrr { sys with a := 0, imm := 9 }).wf = false ∧
    (Instr.csrw { sys with d := 0, imm := 0x28 }).wf = false ∧ (Instr.csrw { sys with d := 0, imm := 0x38 }).wf = false ∧
    (Instr.waitt { sys with d := 0, imm := 7 }).wf = false ∧ (Instr.waitt { sys with d := 0, imm := 0x40 + 0x40, long := true }).wf = false := by
  decide
theorem test_wf_fields : (Instr.ext { tri with b := 0, ext := some 0x4001 }).wf = false ∧
    (Instr.ins { tri with b := 0, ext := some 0x10100 }).wf = false ∧ (Instr.shrs { tri with ext := some 6 }).wf = false ∧
    (Instr.sats { tri with b := 0, ext := some 0 }).wf = false ∧ (Instr.shrn { tri with b := 0, ext := some 65 }).wf = false ∧
    (Instr.rcpn { tri with b := 0 }).wf = false ∧ (Instr.cmp .eq { tri with d := 16 }).wf = false ∧
    (Instr.fence .cl .rlx { bare with slot := 2 }).wf = false ∧ (Instr.spill { tri with slot := 2, b := 2 }).wf = false ∧
    (Instr.spill { tri with slot := 2, a := 0, b := 0 }).wf = false := by decide
theorem test_wf_matrix : (Instr.mldn { tri with slot := 5, d := 2, b := 0 }).wf = false ∧
    (Instr.mdrain { tri with slot := 5, b := 0, ext := some (1 + 32 * 2 ^ 19) }).wf = false ∧
    (Instr.mcps { imm with slot := 5, d := 0, a := 0, imm := 3, long := true }).wf = false ∧
    (Instr.sbind { tri with slot := 6, ext := some 6 }).wf = false ∧ (Instr.dsetf { tri with slot := 6, b := 12 }).wf = false := by decide
theorem test_wf_atomics : (Instr.atom .add .cl .rlx { tri with slot := 2, ext := some (1 + 2 ^ 13) }).wf = false ∧
    (Instr.atom .add .cl .rlx { tri with slot := 2, ext := some 0 }).wf = false ∧
    (Instr.cas .cl .rlx { tri with slot := 2, ext := some (1 + 2 ^ 13) }).wf = false := by decide
theorem test_wf_riscv : (Instr.lxCpy { rd := 32, rs1 := 0, rs2 := 0 }).wf = false ∧
    (Instr.lxStage { rd := 1, rs1 := 0, rs2 := 0 }).wf = false ∧ (Instr.riscvLoad .lb { rd := 1, rs1 := 1, imm := 2048 }).wf = false ∧
    (Instr.lxWaitt { rd := 1, rs1 := 1, imm := 6 }).wf = false := by decide
theorem test_wf_events : (Instr.yieldExpiry 640 0).wf = false ∧ (Instr.yieldExpiry 0 4).wf = false ∧ (Instr.patrolScrub 32).wf = false ∧
    (Instr.lampTake 2).wf = false ∧ (Instr.qtailWrite 0 64 0).wf = false ∧ (Instr.cxlPortDown 16).wf = false ∧
    (Instr.engineCompletion 0 (.ch 4)).wf = false := by decide

/-! ## Words of the spec (R222, R235, R247, R332, the worked examples of chapters 9 to 14 and 22) -/

theorem test_decode_add : (decodeWords 0 [0x0100E0C2]).toOption =
    some (.add { slot := 0, pred := 0, d := 3, ba := true, a := 1, bb := true, b := 2, ext := none }) := by decide
theorem test_decode_addi_long : (decodeWords 1 [0x02012200, 0x000186A0]).toOption =
    some (.addi { slot := 1, pred := 0, d := 4, ba := true, a := 4, imm := 100000, long := true }) := by decide
theorem test_decode_add_guarded : (decodeWords 1 [0x0190A161]).toOption =
    some (.add { slot := 1, pred := 9, d := 2, ba := true, a := 2, bb := true, b := 33, ext := none }) := by decide
theorem test_decode_shrs : (decodeWords 0 [0x48016347, 0x00000406]).toOption =
    some (.shrs { slot := 0, pred := 0, d := 5, ba := true, a := 6, bb := true, b := 7, ext := some 0x406 }) := by decide
theorem test_decode_movi : (decodeWords 1 [0x2700C003]).toOption =
    some (.movi { slot := 1, pred := 0, d := 3, ba := false, a := 0, imm := 3, long := false }) := by decide
theorem test_decode_loop : (decodeWords 1 [0x86006186]).toOption =
    some (.loop { slot := 1, pred := 0, d := 1, ba := true, a := 3, imm := 6, long := false }) := by decide
theorem test_decode_cmpi : (decodeWords 0 [0x38006481]).toOption =
    some (.cmpi .eq { slot := 0, pred := 0, d := 1, ba := true, a := 9, imm := 1, long := false }) := by decide
theorem test_decode_ld : (decodeWords 2 [0x0300A4C7]).toOption =
    some (.ld .i64 { slot := 2, pred := 0, d := 2, ba := true, a := 9, land := 92, disp := 0, long := false }) := by decide
theorem test_decode_stl : (decodeWords 2 [0x2701E448]).toOption =
    some (.stl .dv .b8 { slot := 2, pred := 0, src := 7, ba := true, a := 8, bs := true, off := 8, long := false }) := by decide
theorem test_decode_lda : (decodeWords 2 [0x17026578]).toOption =
    some (.lda .dv .b8 { slot := 2, pred := 0, d := 9, ba := true, a := 10, land := 288, disp := 0, long := false }) := by decide
theorem test_decode_vld : (decodeWords 2 [0x301125F8]).toOption =
    some (.vld { slot := 2, pred := 1, d := 4, ba := true, a := 11, land := 288, disp := 0, long := false }) := by decide
theorem test_decode_vst : (decodeWords 2 [0x31012440]).toOption =
    some (.vst { slot := 2, pred := 0, src := 4, ba := true, a := 8, bs := true, off := 0, long := false }) := by decide
theorem test_decode_vadd : (decodeWords 3 [0x020122C6]).toOption =
    some (.vadd .i32 { slot := 3, pred := 0, d := 4, ba := true, a := 5, bb := true, b := 6, ext := none }) := by decide
theorem test_decode_vredmax : (decodeWords 4 [0x9A01A280, 2]).toOption =
    some (.vredmax .i32 { slot := 4, pred := 0, d := 6, ba := true, a := 5, bb := false, b := 0, ext := some 2 }) := by decide
theorem test_decode_vredmax_slot : (decodeWords 3 [0x9A01A280, 2]).toOption = none := by decide
theorem test_decode_vmovg : (decodeWords 3 [0xBB01E340]).toOption =
    some (.vmovg .i64 { slot := 3, pred := 0, d := 7, ba := true, a := 6, bb := true, b := 0, ext := none }) := by decide
theorem test_decode_mrun : (decodeWords 5 [0x0400A180, 0x0001007F]).toOption =
    some (.mrun { slot := 5, pred := 0, d := 2, ba := true, a := 3, bb := false, b := 0, ext := some 0x1007F }) := by decide
theorem test_decode_gridld : (decodeWords 6 [0x0C012142, 0x00000140]).toOption =
    some (.gridld { slot := 6, pred := 0, d := 4, ba := true, a := 2, bb := true, b := 2, ext := some 320 }) := by decide
theorem test_decode_gridsc : (decodeWords 6 [0x0D016142]).toOption =
    some (.gridsc { slot := 6, pred := 0, d := 5, ba := true, a := 2, bb := true, b := 2, ext := none }) := by decide
theorem test_decode_waitt : (decodeWords 7 [0x01002610]).toOption =
    some (.waitt { slot := 7, pred := 0, d := 0, ba := true, a := 12, imm := 16, long := false }) := by decide
theorem test_decode_end : (decodeWords 7 [0x11000000]).toOption = some (.endTask { slot := 7, pred := 0 }) := by decide
theorem test_decode_lx_cpy : (decodeHelper 0x00C5850B).toOption = some (.lxCpy { rd := 10, rs1 := 11, rs2 := 12 }) := by decide
theorem test_decode_lx_waitt : (decodeHelper 0x0105128B).toOption = some (.lxWaitt { rd := 5, rs1 := 10, imm := 0x10 }) := by decide
/-- Opcode 0x0B is illegal on a distributor and 0x2B on a helper (R332, R339). -/
theorem test_decode_foreign : decodeDist 0x00C5850B = .error .illegal ∧ decodeHelper 0x00C5852B = .error .illegal := ⟨rfl, rfl⟩
theorem test_decode_lx_bind : (decodeDist 0x00C5852B).toOption = some (.lxBind { rd := 10, rs1 := 11, rs2 := 12 }) := by decide
theorem test_decode_lw : (decodeHelper 0x0005A503).toOption = some (.riscvLoad .lw { rd := 10, rs1 := 11, imm := 0 }) := by decide
/-- amoswap.d.aqrl x10, x12, (x11). -/
theorem test_decode_amo : (decodeDist 0x0EC5B52F).toOption = some (.riscvAmo .swap true true true { rd := 10, rs1 := 11, rs2 := 12 }) := by
  decide
theorem test_decode_header : (decodeHeader 0x80238005).map (fun h => (h.words, h.rep, h.rot, h.codes)) =
    some (5, 0, false, [2, 3, 0, 2, 0, 0, 0, 0]) := by decide
theorem test_decode_header_rot : (decodeHeader 0x80024112).map (fun h => (h.words, h.rep, h.rot, h.codes)) =
    some (2, 1, true, [1, 2, 0, 0, 0, 0, 0, 0]) := by decide


/-! ## One step of an instruction, against numbers of the spec -/

def task0 : Task := { asid := 0, nodeId := 7, ncc := 64, queue := 0, ticket := 1, gang := none, spawned := false, accm := 255, order := 0 }
/-- Context 0 of core 0 is `k`, and its bundle runs. -/
def ctxS (k : Ctx) : State := { State.reset with cores := [(0, { ctxs := [(0, k)] })], focus := .ctx 0 0 }
def run0 : Ctx := { status := .ready, task := some task0, k := [(0, BitVec.allOnes 256)] }
def gS (g : Tab GReg) : State := ctxS { run0 with g }
def vS (v : Tab VReg) : State := ctxS { run0 with v }
def num (v : Int) : GReg := { val := BitVec.ofInt 64 v }
def vec (bits : Nat) (xs : List Int) : VReg := { val := ofLanes bits xs }
def gOf (o : Host.Outcome State Fault Refusal) (n : Nat) : Option Int := match o with | .next t => some (t.cur.gAt n).val.toInt | _ => none
def ofNext {α : Type} (o : Host.Outcome State Fault Refusal) (f : State → α) : Option α := match o with | .next t => some (f t) | _ => none
/-- Value, cycle and saturation events of the one pending write. -/
def pendOf (o : Host.Outcome State Fault Refusal) : Option (List (Int × Nat × Nat)) :=
  ofNext o fun t => t.cur.pend.map fun p => ((p.val.setWidth 64).toInt, p.due, p.sat)

/-- The worked example of R102: d = 6, k = 4, r = 11. -/
theorem test_shrs : gOf (exec (.shrs { tri with d := 5, a := 6, b := 7, ext := some 0x406 }) (gS [(6, num 1000), (7, num 11)])) 5 = some 16 ∧
    gOf (exec (.shrs { tri with d := 5, a := 6, b := 7, ext := some 0x406 }) (gS [(6, num (-1000)), (7, num 11)])) 5 = some (-15) := by
  decide +kernel
/-- R101: 40 gives 2, 56 gives 4 and -40 gives -2 with d = 4. -/
theorem test_shrn : gOf (exec (.shrn { tri with b := 0, ext := some 4 }) (gS [(2, num 40)])) 1 = some 2 ∧
    gOf (exec (.shrn { tri with b := 0, ext := some 4 }) (gS [(2, num 56)])) 1 = some 4 ∧
    gOf (exec (.shrn { tri with b := 0, ext := some 4 }) (gS [(2, num (-40))])) 1 = some (-2) := by decide +kernel
/-- R237: 7 / -2 is -4 with remainder -1, -7 / 2 is -4 with remainder 1, at latency 36. -/
theorem test_divf : pendOf (exec (.divf tri) (gS [(2, num 7), (3, num (-2))])) = some [(-4, 36, 0)] ∧
    pendOf (exec (.divf tri) (gS [(2, num (-2 ^ 63)), (3, num (-1))])) = some [(2 ^ 63 - 1, 36, 1)] := by decide +kernel
theorem test_remf : pendOf (exec (.remf tri) (gS [(2, num (-7)), (3, num 2)])) = some [(1, 36, 0)] ∧
    pendOf (exec (.remf tri) (gS [(2, num 7), (3, num (-2))])) = some [(-1, 36, 0)] := by decide +kernel
theorem test_abs : gOf (exec (.abs { tri with b := 0 }) (gS [(2, num (-2 ^ 63))])) 1 = some (2 ^ 63 - 1) := by decide +kernel
theorem test_add_wraps : gOf (exec (.add tri) (gS [(2, num (2 ^ 63 - 1)), (3, num 1)])) 1 = some (-2 ^ 63) := by decide +kernel
theorem test_sub_order : gOf (exec (.sub tri) (gS [(2, num 5), (3, num 7)])) 1 = some (-2) := by decide +kernel
theorem test_sar : gOf (exec (.sar tri) (gS [(2, num (-8)), (3, num 65)])) 1 = some (-4) := by decide +kernel
theorem test_mulh : pendOf (exec (.mulh tri) (gS [(2, num (-1)), (3, num (-1))])) = some [(0, 3, 0)] ∧
    pendOf (exec (.mulhn tri) (gS [(2, num (-1)), (3, num (-1))])) = some [(-2, 3, 0)] := by decide +kernel
theorem test_rcpn_zero : pendOf (exec (.rcpn { tri with slot := 1, b := 0 }) (gS [])) = some [(2 ^ 63 - 1, 10, 1), (64, 10, 0)] := by decide +kernel
theorem test_cmp_unsigned : ofNext (exec (.cmp .lt tri) (gS [(2, num (-1)), (3, num 1)])) (fun t => (t.cur.pAt 1).val) = some true ∧
    ofNext (exec (.cmp .ltn tri) (gS [(2, num (-1)), (3, num 1)])) (fun t => (t.cur.pAt 1).val) = some false := by decide +kernel
theorem test_guard_zero : exec (.add { tri with pred := 3 }) (gS [(2, num 5)]) = .next (gS [(2, num 5)]) := rfl
theorem test_write_g0 : gOf (exec (.add { tri with d := 0 }) (gS [(2, num 5), (3, num 6)])) 0 = some 0 := by decide +kernel

/-- The worked example of R277, run by run: LSE, LSCNT and LSFLOOR after LSUPD, and Pd. -/
def lossRun (e cnt floor : Nat) (sat : Bool) : Option (Nat × Nat × Nat × Bool) :=
  ofNext (exec (.lsupd { tri with slot := 7, a := 0, b := 0 }) (ctxS { run0 with
    sat, ls := { e := BitVec.ofNat 8 e, min := 8, max := 11, int := 2, cnt := BitVec.ofNat 32 cnt, floor := BitVec.ofNat 32 floor } }))
    fun t => (t.cur.ls.e.toNat, t.cur.ls.cnt.toNat, t.cur.ls.floor.toNat, (t.cur.pAt 1).val)
theorem test_lsupd_clean : lossRun 10 0 0 false = some (10, 1, 0, false) ∧ lossRun 10 1 0 false = some (11, 0, 0, false) ∧
    lossRun 11 0 0 false = some (11, 2, 0, false) := by decide +kernel
theorem test_lsupd_overflow : lossRun 11 2 0 true = some (10, 0, 0, true) ∧ lossRun 9 0 0 true = some (8, 0, 0, true) ∧
    lossRun 8 0 0 true = some (8, 0, 1, true) ∧ lossRun 8 0 1 false = some (8, 1, 1, false) := by decide +kernel
/-- R276: LSINT resets to 0x7D0. -/
theorem test_csrr_lsint : gOf (exec (.csrr { sys with a := 0, imm := 0x24 }) (gS [])) 1 = some 0x7D0 := by decide +kernel
theorem test_csrw_lsint_zero : ofNext (exec (.csrw { sys with d := 0, imm := 0x24 }) (gS [])) (fun t => t.cur.ls.int) = some 1 := by
  decide +kernel
/-- R349: TRAP takes cause 9 with its code in TRADDR and goes to the handler. -/
theorem test_trap : ofNext (exec (.trap { sys with a := 0, imm := -3 }) (ctxS { run0 with pc := 0x40, trap := { vecEn := true, vecAddr := 0x400 } }))
    (fun t => (t.cur.pc, t.cur.trap.code, t.cur.trap.addr.toInt, t.cur.trap.pc, t.cur.trap.slot)) = some (0x1000, 9, -3, 0x40, 7) := by
  decide +kernel
theorem test_tret_user : ofNext (exec (.tret bare) (gS [])) (fun t => (t.cur.status, t.cur.trap.code)) = some (.halted, 2) := by decide +kernel
/-- R247: LOOP G3, 2 with G3 = 3 makes four passes; IMM7 is 6 words. -/
theorem test_loop : ofNext (exec (.loop { imm with slot := 1, d := 1, a := 3, imm := 6 })
    (((State.reset.withFetchWord 64 0x8600618680020002).onCur fun k => { k with g := [(3, num 3)] })))
    (fun t => (t.cur.loop.count, t.cur.loop.sm1, t.cur.loop.last, t.cur.loop.start)) = some (4, 1, 24, 8) := by decide +kernel
theorem test_bra : ofNext (exec (.bra disp) (ctxS { run0 with pc := 64 })) (fun t => t.cur.redirect) = some (some (.shadow 56)) := by
  decide +kernel

/-- R292: VEXP2 of 0 is 2^15, and of a positive lane counts as saturated; R291 and R288 on the row of chapter 12's
example. -/
def row : VReg := vec 32 ([20, -8, 36, 4, -16, 12, 36, 28] ++ List.replicate 56 1000)
def k2 : Tab (BitVec 256) := [(2, 0x11111111)]
theorem test_vredmax : (ofNext (exec (.vredmax .i32 { tri with slot := 4, d := 6, a := 5, b := 0, ext := some 2 })
    (ctxS { run0 with v := [(5, row)], k := k2 })) fun t => t.cur.pend.map fun p => (lane 64 p.val 0, p.due)) = some [(36, 5)] := by decide +kernel
theorem test_vsub_masked : (ofNext (exec (.vsub .i32 { tri with slot := 3, d := 8, a := 5, b := 7, ext := some 2 })
    (ctxS { run0 with v := [(5, row), (7, vec 32 (List.replicate 64 36))], k := k2 }))
    fun t => t.cur.pend.map fun p => (lanes 32 p.val).take 10) = some [[-16, -44, 0, -32, -52, -24, 0, -8, 0, 0]] := by decide +kernel
theorem test_vadds : (ofNext (exec (.vadds .i8 { tri with slot := 3 }) (vS [(2, vec 8 [127, -128]), (3, vec 8 [1, -1])]))
    fun t => t.cur.pend.map fun p => (lane 8 p.val 0, lane 8 p.val 1, p.sat)) = some [(127, -128, 2)] := by decide +kernel
/-- The worked example of R107: x0 = 5, x1 = -3. -/
theorem test_vhad : (ofNext (exec (.vhad .i32 { tri with slot := 4, b := 0 }) (vS [(2, vec 32 [5, -3])]))
    fun t => t.cur.pend.map fun p => (lanes 32 p.val).take 17) =
    some [[2, 8, 2, 8, 2, 8, 2, 8, 2, 8, 2, 8, 2, 8, 2, 8, 0]] := by decide +kernel
/-- The worked example of R110: index 0xFF82 with BSH 2. -/
theorem test_vcbdec : (ofNext (exec (.vcbdec .i32 { tri with slot := 4 }) (ctxS { run0 with v := [(2, vec 16 [0xFF82])], g := [(3, num 2)] }))
    fun t => t.cur.pend.map fun p => (lanes 32 p.val).take 8) = some [[4, -4, 0, 0, 0, 0, 0, -8]] := by decide +kernel
theorem test_vmovg : pendOf (exec (.vmovg .i64 { tri with slot := 3, a := 5 }) (ctxS { run0 with v := [(5, vec 64 [36, -1])], g := [(3, num 33)] })) =
    some [(-1, 2, 0)] := by decide +kernel

/-- The worked example of R13: home die 30, MTU 1. -/
theorem test_home : homeDie 0x1234560000 = 30 ∧ mtuOf 0x1234560000 = 1 := by decide +kernel
/-- R96 and R98: E from -10 by the shift 8, C from the three stored elements, and the next shift 9 (rows 1 and 2 of the
table). -/
theorem test_census : shiftdown 20000 8 0 0 0 = 78 ∧ shiftdown (-3000) 8 0 0 0 = -12 ∧ shiftdown 500 8 0 0 0 = 1 := by decide +kernel
/-- The worked example of R318: group 0 of column 0 and its liveness bits. -/
theorem test_regrow : (let o := regrowGroup [(0, 5, false), (2, -3, false)] [(1, -4, false), (3, 2, false)]
    o.1.map fun g => (g.1, g.2.1)) = [(0, 5), (1, -4)] ∧ (regrowGroup [(1, 2, false), (2, 6, false)] [(0, -2, false), (3, 1, false)]).1 =
    [(1, 2, false), (2, 6, false)] := by decide +kernel
/-- Chapter 6's worked example: the corners of query A and of query B. -/
theorem test_grid_corners : gridCorners 16 8 [0x5400, 0xC800] = [(121, 24576), (122, 8192), (116, 24576), (119, 8192)] ∧
    gridCorners 16 8 [0x8800, 0xD000] = [(121, 32768), (120, 32768), (110, 0), (111, 0)] := by decide +kernel
/-- R113's worked example: three period bytes, eight signed 3-bit fields. -/
theorem test_pattern : patCut ((List.range 8).map fun f => (3 * f, 3, true)) 0xFAC688 = [0, 1, 2, 3, -4, -3, -2, -1] := by decide +kernel

theorem test_ld : ofNext (exec (.ld .i16 { land with disp := -8 }) (gS [(2, num 0x10008)]))
    (fun t => (t.net.map (·.pieces), t.cur.pend.map (·.due), (t.cur.gAt 1).full)) =
    some ([[.read 0x10000 2]], [40], false) := by decide +kernel
theorem test_st_narrows : ofNext (exec (.st .b1 stor) (gS [(1, num 0x1FF), (2, num 0x10020)])) (fun t => t.net.map (·.pieces)) =
    some [[.elem 0x10000 0 (-1) 8 false false 0 0 false]] := by decide +kernel
/-- R256: a misaligned STL is declined and sets the flag. -/
theorem test_stl_misaligned : ofNext (exec (.stl .dv .b8 { stor with off := 0 }) (gS [(1, num 1), (2, num 0x10004)]))
    (fun t => (t.cur.decl, t.cur.declFirst, t.net.length)) = some (true, 0x10004, 0) := by decide +kernel
theorem test_tset : pendOf (exec (.tset { tri with slot := 2 }) (gS [(2, num 511), (3, num 0x4001)])) = some [(3, 2, 0)] := by decide +kernel
theorem test_spill_g : ofNext (exec (.spill { tri with slot := 2, b := 0 }) (gS [(2, num 9)]))
    (fun t => ((t.cur.gAt 2).full, (t.cur.pAt 1).val, t.fcore.spills.length)) = some (false, true, 1) := by decide +kernel
theorem test_yield : ofNext (exec (.yield { sys with a := 0, imm := 5 }) (gS [])) (fun t => t.cur.status) =
    some (.waiting (.yielding 6)) := by decide +kernel
theorem test_mcps : ofNext (exec (.mcps { imm with slot := 5, d := 3, a := 0, imm := 7, long := true }) (gS [])) (fun t => (t.cur.cpatSteps, t.cur.cpatLen)) =
    some (7, 3) := by decide +kernel
theorem test_dsetf : ofNext (exec (.dsetf { tri with slot := 6, d := 4, a := 2, b := 1 }) (gS [(2, num 3)])) (fun t => (dFmt (t.cur.dAt 4))) =
    some 3 := by decide +kernel

/-! Helper and distributor cores. -/

def loader : State := { State.reset with focus := .loader 0, cores := [(0, { loader := { running := true } })] }
def distr : State := { State.reset with focus := .dist 0 }
theorem test_lx_stage : ofNext (exec (.lxStage { rd := 0, rs1 := 5, rs2 := 0 }) (loader.setX 5 7)) (fun t => (t.core 0).stage) = some 7 := by decide +kernel
theorem test_lx_kscan : ofNext (exec (.lxKscan { rd := 5, rs1 := 0, rs2 := 0 }) (distr.onDie 0 fun k => { k with kicks := 0x28 }))
    (fun t => (t.x 5, (t.die 0).kicks)) = some (3, 0x20) := by decide +kernel
theorem test_riscv_lb : ofNext (exec (.riscvLoad .lb { rd := 5, rs1 := 0, imm := 1 })
    { loader with mem := [(spadKey 0 0, 0)] }) (fun t => t.x 5) = some 0 := by decide +kernel

/-! Ports and events. -/

theorem test_fog_clamped : ofNext (exec (.registerWrite 0 0x40 5) { State.reset with mgmt := { bootPhase := 7 } }) (fun t => t.mgmt.fog) =
    some 1000 := by decide +kernel
/-- Step 4 of R179's example: a TAIL behind the one on record is ignored. -/
theorem test_qtail : (let s : State := { State.reset with queues := [(5, { v := true, caplog := 3, head := 4, tail := 12 })] }
    ofNext (exec (.qtailWrite 0 5 11) s) (fun t => (t.queue 5).tail) = some 12 ∧ ofNext (exec (.qtailWrite 0 5 14) s) (fun t => (t.queue 5).tail) = some 14) := by
  decide +kernel
theorem test_lamp_held : ofNext (exec (.lampTake 1) { State.reset with lamp := 1 }) (fun t => t.lamp) = some 1 := by decide +kernel
theorem test_tripped : step { State.reset with mgmt := { tripped := true } } = .fault .poweredOff := rfl
/-- R71: bits [17:16] of the offset 0x30000 name controller 3; controller 1 holds no such row, and a good row is not
reported. -/
def badRow : State := State.reset.onDie 2 fun k => { k with badRows := [3] }
theorem test_row_fault : ofNext (exec (.rowFault 2 3 0x30000) badRow) (fun t => (t.die 2).rowFaults) = some [(3, 0x30000)] ∧
    ofNext (exec (.rowFault 2 1 0x30000) badRow) (fun t => (t.die 2).rowFaults) = some [] ∧
    ofNext (exec (.rowFault 2 3 0x30000) State.reset) (fun t => (t.die 2).rowFaults) = some [] := by decide +kernel
theorem test_barrier_opens : ofNext (exec (.bara { land with disp := 0 }) { gS [(2, num 9)] with barriers := [(9, { mask := 1 })] })
    (fun t => ((t.barrier 9).gen, t.replies.map (fun y => y.val.toNat), ((t.barArrive 0 9 0).barrier 9).gen)) = some (0, [0], 1) := by
  decide +kernel
/-- R407's worked example: its three moves are one ADD, whose trigger takes what the file ports held. -/
theorem test_plezar_moves : plzMoves [0x170, 0x010010000270, 0x03700800] =
      some [{ su := 0x70, sp := 1, du := 0, dp := 0, guard := 0, opc := 0 },
        { su := 0x70, sp := 2, du := 0, dp := 16, guard := 0, opc := 1 }, { su := 0, sp := 8, du := 0x70, dp := 3, guard := 0, opc := 0 }] ∧
    plzNativeWord 1 0 3 1 2 = 0x0100E0C2 := by decide +kernel
/-- A must-be-0 bit, class 6 and an OPC without a trigger are rejected. -/
theorem test_plezar_rejects : plzWord (0x170 + 2 ^ 36) = none ∧ plzWord 0x600170 = none ∧ plzWord (0x170 + 2 ^ 40) = none := by
  decide +kernel

/-- How a placed word runs first after reset (log entry 28). -/
theorem test_placed : ofNext (step (State.reset.withFetchWord 32 0x8002_8003)) (fun _ => ()) = some () := by decide +kernel

def cmd0 : Cmd := { port := 0, queue := 0, op0 := 0, op1 := 0, op2 := 0, op3 := 0 }

/-! ## Witnesses: states and operands that meet the hypotheses of each clause of a statement -/

theorem met_ready {g : Got} {P : List (Byte × Bool) → Bool}
    (h : (match g with | .ready bs => P bs | .blocked _ => false) = true) : ∃ bs, g = .ready bs ∧ P bs = true := by
  cases g with
  | ready bs => exact ⟨bs, rfl, h⟩
  | blocked _ => cases h

theorem met_asked {g : Asked} {P : Prog → State → Bool}
    (h : (match g with | .got p _ u => P p u | _ => false) = true) : ∃ p l u, g = .got p l u ∧ P p u = true := by
  cases g with
  | got p l u => exact ⟨p, l, u, rfl, h⟩
  | _ => cases h

theorem met_got {g : Mem} {P : List Byte → State → Bool}
    (h : (match g with | .got bs u => P bs u | _ => false) = true) : ∃ bs u, g = .got bs u ∧ P bs u = true := by
  cases g with
  | got bs u => exact ⟨bs, u, rfl, h⟩
  | _ => cases h

theorem met_next {o : Host.Outcome State Fault Refusal} (h : (ofNext o fun _ => ()) = some ()) : ∃ u, o = .next u := by
  cases o with
  | next u => exact ⟨u, rfl⟩
  | _ => cases h

/-- The scratchpad address with this offset. -/
def spadVa (off : Nat) : Nat := 0xFF000000000000 + off
def empty : GReg := { full := false }
def bad : GReg := { poison := true }
def acc0 (s : State) (k : AccKind) : Acc := { agent := s.focus, kind := k, asid := s.old.asid, need := none }

theorem witness_IssueRules :
    ((Instr.add { tri with pred := 1 }).guard = some (0, 1) ∧ ((ctxS { run0 with p := [(1, { full := false })] }).p 1).full = false ∧
      ((gS []).p 15).full = true ∧ ((gS []).p 15).val = false) ∧
    (((gS []).p 0).full = true ∧ ((gS []).p 0).val = true ∧ tri.ext = none ∧ ((gS [(2, empty)]).g 2).full = false ∧
      ((gS [(3, empty)]).g 2).full = true ∧ ((gS [(3, empty)]).g 3).full = false) ∧
    (ctxS { run0 with pend := [{ dest := .g 1, due := 3, val := 0, poison := false, landed := false, arrived := true, req := 0, sat := 0 }] }).old.pending
      (.g 1) = true ∧
    ((vS [(2, { full := false })]).v 2).full = false ∧ ((gS [(2, bad)]).g 2).poison = true ∧ (gS [(2, bad)]).old.pending (.g 1) = false ∧
    (((gS [(3, bad)]).g 2).poison = false ∧ ((gS [(3, bad)]).g 3).poison = true ∧ (gS [(3, bad)]).old.pending (.p 1) = false) := by
  decide +kernel

theorem witness_NativeFrame : ∃ u, (Instr.add tri).guard = some (0, 0) ∧ exec (.add tri) (gS []) = .next u :=
  ⟨_, rfl, rfl⟩

theorem witness_ReadAfterWrite : (64 + 1 ≤ 65 ∨ 65 + 2 ≤ 64) ∧ ¬ (65 ≤ 64 ∧ 64 < 65 + 2) ∧ ∀ i < 2, (126 + i) / 64 ≠ 128 / 64 := by decide

theorem witness_DecodingInvertsEncoding :
    ((Instr.add tri).guard = some (0, 0) ∧ (Instr.add { tri with d := 63, pred := 15 }).wf = true) ∧
    (Instr.lxCpy { rd := 31, rs1 := 31, rs2 := 31 }).wf = true ∧ (Instr.lxWaitt { rd := 31, rs1 := 31, imm := 16 }).wf = true ∧
    (Instr.lxBind { rd := 31, rs1 := 31, rs2 := 31 }).wf = true ∧ (Instr.riscvLoad .lb { rd := 31, rs1 := 31, imm := -2048 }).wf = true ∧
    (Instr.riscvStore .b8 { rs1 := 31, rs2 := 31, imm := 2047 }).wf = true ∧
    (Instr.riscvAmo .swap true true true { rd := 31, rs1 := 31, rs2 := 31 }).wf = true ∧ (Instr.riscvFence 8 15 15).wf = true := by
  decide +kernel

/-- The state with this word placed where the next step runs it. -/
def placed (n w : Nat) : State := State.reset.withFetchWord n w
def oneAdd : Bundle := { addr := 0, words := 2, rep := 0, rot := false, nomerge := false, ops := [(0, some (.add tri))], used := [0] }
def due0 : State := { ctxS { run0 with status := .waiting (.yielding 0) } with mgmt := { bootPhase := 7 } }

theorem witness_StepRunsDecoded :
    ({ State.reset with agenda := [.event (.lampTake 0), .error (.line 64)] } : State).mgmt.tripped = false ∧
    ((State.reset.mgmt.supply = true ∧ reachesReset (.lampTake 0) = false ∧ reachesReset (.supplyOutOfRange true) = true) ∧
      ({ supply := false } : Mgmt).supply = false) ∧
    (let s : State := { State.reset with mgmt := { bootPhase := 7 }, agenda := [.turn (.ctx 639 3)] };
      s.mgmt.tripped = false ∧ s.dueNow = none) ∧
    (due0.mgmt.tripped = false ∧ due0.agenda = [] ∧ due0.auto = some (.yieldExpiry 0 0)) ∧
    ((match (placed 32 0x0105128B).hartFetch with
      | .word w _ s1 => (match s1.hartDecode w with | .ok i => (ofNext (exec i s1) fun _ => ()).isSome | _ => false)
      | _ => false) = true ∧ (placed 32 0x0105128B).auto = none ∧ ((placed 32 0x0105128B).helper 0 false).running = true) ∧
    ((match (placed 32 0x0005A503).hartFetch with
      | .word w _ s1 => (match s1.hartDecode w with | .ok i => (ofNext (exec i s1) fun _ => ()).isSome | _ => false)
      | _ => false) = true ∧ (placed 32 0x0005A503).focus = .dist 0 ∧ (placed 32 0x0005A503).auto = none ∧
      (placed 32 0x0005A503).runsFirmware 0 = true ∧ (placed 32 0x0005A503).interrupt 0 = none) ∧
    (misplaced (.add tri) 2 0 = false ∧ (ofNext (exec (.add tri) (gS [])) fun _ => ()).isSome = true) ∧
    (match (placed 64 0x0100410380008002).bundle with | .ok _ => true | _ => false) = true ∧
    (placed 64 0x0100410380008002).auto = none ∧ (placed 64 0x0100410380008002).focus = .ctx 0 0 := by decide +kernel

theorem witness_ResetValues : 127 < 128 := by decide

theorem witness_StepKeepsMemoryCanonical : Memory.wf State.reset.mem ∧ ∃ t, step State.reset = .next t :=
  ⟨by decide, met_next (by decide +kernel)⟩

theorem witness_ScalarArithmetic : (gS [(2, num (-2 ^ 63)), (3, bad)]).grants 0 (srcsAB tri) [.g 1] [] ∧
    (gS [(2, num (-2 ^ 63))]).grants 0 [srcA tri] [(gS []).dg 0] [] ∧ (gS []).grants 0 [.g 2 false] [(gS []).dg 63] [] ∧
    (gS []).grants 0 [] [(gS []).dg 1] [] := by unfold State.grants; decide +kernel

theorem witness_ShiftsAndFields : (gS [(2, num 9), (3, num 0x14004)]).grants 0 (srcsAB tri) [(gS []).dg 1] [] ∧
    (gS [(3, num 0x4000)]).grants 0 (srcsAB tri ++ [.g 1 true]) [(gS []).dg 1] [] ∧
    (∀ j < 64, (5 : Word).getLsbD j = if 0 ≤ j ∧ j < 0 + 64 then (5 : Word).getLsbD (j - 0) else (0 : Word).getLsbD j) ∧
    (gS []).grants 0 [srcA tri] [(gS []).dg 1] [] ∧ (64 - 1 < 64 ∧ 2 ^ (63 - 63) ≤ 1 ∧ 1 < 2 ^ (64 - 63)) ∧
    (2 ^ 63 % 2 ^ 63 = 0 ∧ 2 ^ 63 % 2 ^ (63 + 1) ≠ 0) ∧ (0 ≤ (63 : Int) ∧ (63 : Int) < 64) ∧
    (gS []).grants 0 [srcA tri, srcB tri, .p 15 true] [(gS []).dg 1] [srcA tri, srcB tri] := by unfold State.grants; decide +kernel

theorem witness_ComparesAndPredicates : (gS [(2, num (-1)), (3, num 1)]).grants 0 (srcsAB tri) [(gS []).dp 1] (srcsAB tri) ∧
    (gS []).grants 0 [.g 2 false] [(gS []).dp 15] [.g 2 false] ∧ (gS []).grants 0 [.p 2 false, .p 3 false] [(gS []).dp 0] [] ∧
    (gS []).grants 0 [.p 15 true] [(gS []).dp 1] [] := by unfold State.grants; decide +kernel

/-- Halves round to even: 5 / 2 to 2 and -5 / 2 to -2; division by 7 and -7 at the ends; a word with its top bit set. -/
theorem witness_ScalarRoutines : (gS [(2, num 5), (3, num 1)]).grants 0 (srcsAB tri) [(gS []).dg 1] [] ∧
    (let r : Int := 2 * (5 - 2 * 2 ^ 1); r ≤ 2 ^ 1 ∧ -2 ^ 1 ≤ r ∧ (r = 2 ^ 1 ∨ r = -2 ^ 1 → (2 : Int) % 2 = 0)) ∧
    (gS [(6, num 1000), (7, num 11)]).grants 0 [srcA { tri with a := 6 }, srcB { tri with b := 7 }] [(gS []).dg 5] [] ∧
    ((0 : Int) < 7 ∧ (-2 : Int) * 7 ≤ -8 ∧ (-8 : Int) < (-2 + 1) * 7) ∧ ((-2 : Int) < 0 ∧ (7 : Int) ≤ -4 * -2 ∧ (-4 + 1 : Int) * -2 < 7) ∧
    (gS [(2, num 1)]).grants 0 [srcA tri] [(gS []).dg 1, (gS []).dg 2] [] ∧
    (2 ^ 63 ≤ 1 * 2 ^ 63 ∧ 1 * 2 ^ 63 < 2 ^ 64) ∧
    (62 % 2 = 0 ∧ 2 ^ 62 ≤ 1 * 2 ^ 62 ∧ 1 * 2 ^ 62 < 2 ^ 64 ∧ (2 ^ 63) ^ 2 * (1 * 2 ^ 62) ≤ 2 ^ 188 ∧ 2 ^ 188 < (2 ^ 63 + 1) ^ 2 * (1 * 2 ^ 62)) ∧
    (gS []).grants 0 [] [(gS []).dg 1] [] := by unfold State.grants; decide +kernel

theorem witness_BranchesGo : (gS []).grants 0 [] [] [] ∧ (gS []).old.target = none ∧
    (gS [(2, num 8)]).grants 0 [srcA tri] [] [srcA tri] ∧ ((gS [(2, num 8)]).g 2).val.toNat % 4 = 0 ∧
    (placed 64 0x0100410380008002).grants 0 [] [.g 31] [] ∧
    (match (placed 64 0x0100410380008002).fetch (.ctx 0 0) 0 0 with | .word h => h == 0x80008002 | _ => false) = true ∧
    (match (placed 64 0x0100410380008002).fetch (.ctx 0 0) 0 8 with | .word h => h == 0 | _ => false) = true ∧
    (placed 64 0x0100410380008002).grants 0 [srcA tri] [(gS []).dg 1] [srcA tri] := by unfold State.grants; decide +kernel
/-- A bundle of two words at 0xF8, whose shadow bundle's header is poisoned. -/
def badShadow : State :=
  let s := (placed 64 0x0100410380008002).poke (deviceKey 0 0x2000F8) (leBytes 4 0x80008002)
  { s with poison := [deviceKey 0 0x200100 / 64] }
/-- In a shadow bundle, with a misaligned target, with a header in a scratchpad, and the shadow that BRC fetches. -/
theorem witness_BranchesGo_traps :
    ((ctxS { run0 with target := some 8 }).grants 0 [] [.g 31] [] ∧ (ctxS { run0 with target := some 8 }).old.target ≠ none) ∧
    ((gS [(2, num 9)]).grants 0 [srcA tri] [(gS []).dg 1] [srcA tri] ∧ ((gS [(2, num 9)]).g 2).val.toNat % 4 ≠ 0) ∧
    ((ctxS { run0 with pc := spadVa 0 }).grants 0 [] [.g 31] [] ∧
      (match (ctxS { run0 with pc := spadVa 0 }).fetch (.ctx 0 0) 0 (spadVa 0) with | .bad _ => true | _ => false) = true) ∧
    ((ctxS { run0 with pc := spadVa 0 }).grants 0 [srcA tri] [(gS []).dg 1] [srcA tri] ∧
      (match badShadow.fetch (.ctx 0 0) 0 0xF8 with | .word h => h % 16 == 2 | _ => false) = true ∧
      (match badShadow.fetch (.ctx 0 0) 0 (0xF8 + 4 * 2) with | .bad _ => true | _ => false) = true) ∧
    (match (placed 64 0x0100410380008002).fetchWords (.ctx 0 0) 0 12 (0 % 16 - 1) with | .ok ws => ws == [] | _ => false) = true ∧
    ({ run0 with redirect := some (.shadow 8) } : Ctx).redirect = some (.shadow 8) ∧ run0.redirect = none ∧ run0.loop.act = false := by
  unfold State.grants; decide +kernel

def loopy (n : Int) : State := (placed 64 0x8600618680020002).onCur fun k => { k with g := [(3, num n)] }
theorem witness_LoopsBegin : (loopy 1).grants 0 [.g 3 false] [] [.g 3 false] ∧ (loopy 1).old.target = none ∧ (loopy 1).old.loop.act = false ∧
    0 < ((loopy 1).g 3).val.toNat ∧ (match (loopy 1).fetch (.ctx 0 0) 0 0 with | .word _ => true | _ => false) = true ∧
    (loopy 0).grants 0 [.g 3 false] [] [.g 3 false] ∧ ((loopy 0).g 3).val = 0 ∧
    (match (loopy 0).fetch (.ctx 0 0) 0 (headerAt 0 6) with | .word _ => true | _ => false) = true := by unfold State.grants; decide +kernel

theorem witness_LoopPassEnds : 31 < 32 ∧ ({ loop := { act := true, count := 1, last := 0 } } : Ctx).redirect = none ∧
    ({ loop := { act := true, count := 1, last := 0 } } : Ctx).loop.act = true ∧ oneAdd.addr = 0 := by decide +kernel

theorem witness_LoadsAndStores : (gS [(2, num 0x10008)]).grants 0 [.g 2 false] [(gS []).dg 1] [.g 2 false] ∧ (gS []).reaches 0x10008 8 ∧
    ((gS []).reaches (2 ^ 47 - 1) 2 ∧ (gS []).misses (2 ^ 47) 256 ∧ (gS []).misses (2 ^ 47) 1) ∧
    ((∀ z, 0x10008 % mBytes z = 0) ∧ ∀ z, z ≠ .b1 → 0x10009 % mBytes z ≠ 0) ∧
    (gS [(1, bad), (2, num (spadVa 0))]).grants 0 [.g 1 false, .g 2 false] [] [.g 2 false] ∧ (gS []).reaches (spadVa 8) 256 ∧
    ((gS []).old.decl = false ∧ (ctxS { run0 with decl := true }).old.decl = true) ∧ (gS []).grants 0 [.g 2 false] [(gS []).dv 1] [.g 2 false] ∧
    (gS []).grants 0 [.v 1 false, .g 2 false] [] [.g 2 false] ∧ ((gS []).g 2).val.getLsbD 63 = false := by
  unfold State.grants State.reaches State.misses
  refine ⟨by decide +kernel, by decide +kernel, by decide +kernel, ⟨fun z => ?_, fun z => ?_⟩, by decide +kernel⟩ <;> cases z <;> decide

/-- A descriptor of one dimension: FMT, BASE and its extent. -/
def desc (fmt base n : Nat) : BitVec 1024 := BitVec.ofNat 1024 (base + fmt * 2 ^ 56 + n * 2 ^ 128 + 2 ^ 320)
def dS (d : BitVec 1024) (g : Tab GReg := []) : State := ctxS { run0 with d := [(0, d), (4, d)], g }
def daw : Int := -2 ^ 63

theorem witness_DescriptorAccesses : (dS (desc 1 0x10000 4) [(2, num daw)]).grants 0 [.g 2 false] [(gS []).dv 1] [.g 2 false] ∧
    dawOk (BitVec.ofInt 64 daw).toNat = true ∧ run0.descBusy 0 = false ∧ dBad (desc 1 0x10000 4) false = false ∧ dFmt (desc 1 0x10000 4) ≠ 9 ∧
    (3, 3) ∈ dawLanes (desc 1 0x10000 4) (BitVec.ofInt 64 daw).toNat 0 ∧
    (gS []).reaches (elemAddr (dBase (desc 1 0x10000 4)) (dLin (desc 1 0x10000 4) 3) 8) 1 ∧
    (dS (desc 1 0x10000 4) [(2, num daw)]).grants 0 [.v 1 false, .g 2 false] [] [.g 2 false] := by
  unfold State.grants State.reaches; decide +kernel
/-- A word with a bit that must be 0, a descriptor that is busy or malformed, elements that are out of range, and a word
that asks for a census. -/
theorem witness_DescriptorAccesses_turned : dawOk (2 ^ 63 + 2 ^ 62) = false ∧
    (ctxS { run0 with descPend := [(0, 0)] }).cur.descBusy 0 = true ∧ dBad (desc 15 0x10000 4) false = true ∧
    (∀ p ∈ dawLanes (desc 1 (2 ^ 47) 4) (2 ^ 63) 0, (gS []).misses (elemAddr (dBase (desc 1 (2 ^ 47) 4)) (dLin (desc 1 (2 ^ 47) 4) p.2) 8) 1) ∧
    (∀ q ∈ run0.descPend, q.1 ≠ 0 ∨ (gS []).nextId ≤ q.2) := by
  unfold State.misses; decide +kernel

/-- An 8-byte atomic at N = 100, and a CAS that compares with G5; a context with a read on its way. -/
def owed : Pend := { dest := .g 9, due := 3, val := 0, poison := false, landed := true, arrived := false, req := 1, sat := 0 }
def owes : State := { ctxS { run0 with pend := [owed] } with nextId := 2 }
theorem witness_AtomicsAndFences : ({ tri with ext := some (100 + 2 ^ 12) } : Tri).ext = some (100 + 2 ^ 12) ∧
    (gS [(2, num 0x10008), (3, num 1)]).grants 0 [srcA tri, srcB tri] [(gS []).dg 1] [srcA tri, srcB tri] ∧ (gS []).reaches 0x10008 8 ∧ (gS []).misses (2 ^ 47) 8 ∧
    (gS []).grants 0 [srcA tri, srcB tri, .g 5 true] [(gS []).dg 1] [srcA tri, srcB tri, .g 5 true] ∧
    (gS []).grants 0 [] [] [] ∧ (gS []).flushDone = true ∧ (gS []).allLanded = true ∧ (gS []).old.decl = false ∧
    (ctxS { run0 with decl := true }).flushDone = true ∧ (ctxS { run0 with decl := true }).old.decl = true ∧
    owes.allLanded = false ∧ owes.flushDone = false := by
  unfold State.grants State.reaches State.misses; decide +kernel

/-- A tag table with one valid entry of key 1 in slot 400, and slot 500 empty. -/
def tagged (g : Tab GReg) : State := { gS [] with cores := [(0, { dslots := 400, tags := [(400, 0x4001)], ctxs := [(0, { run0 with g })] })] }
def spilled : Spill := { ctx := 0, dest := .g 1, loc := 0, val := 5, poison := false }
theorem witness_TagsAndSpills :
    ((tagged [(2, num 0x4000)]).grants 0 [srcA tri] [(gS []).dg 1] [srcA tri] ∧
      (tagged [(2, num 0x4000)]).fcore.tags.find? (fun p => p.2.getLsbD 0 && p.2.toNat / 2 ^ 14 % 2 ^ 42 = 1) = some (400, 0x4001)) ∧
    (tagged [(2, num 0x8000)]).fcore.tags.find? (fun p => p.2.getLsbD 0 && p.2.toNat / 2 ^ 14 % 2 ^ 42 = 2) = none ∧
    ((399 < 400 ∨ 511 < 399) ∧ (511 < 400 ∨ 511 < 512) ∧ 400 ≤ 511) ∧
    (tagged [(2, num 400), (3, num 0x4001)]).grants 0 [srcA tri, srcB tri] [(gS []).dg 1] [srcA tri, srcB tri] ∧
    (((0x4001 : Word).getLsbD 0 = true ∧ (0x4001 : Word).toNat / 2 ^ 14 % 2 ^ 42 = (num 0x4001).val.toNat / 2 ^ 14 % 2 ^ 42) ∧
      (0x4001 : Word).toNat / 2 ^ 14 % 2 ^ 42 ≠ (num 0x8001).val.toNat / 2 ^ 14 % 2 ^ 42 ∧ (tagged []).fcore.tags.get 511 0 = 0) ∧
    (tagged []).grants 0 [] [(gS []).dg 1] [] ∧
    ((gS []).grants 0 [.g 2 false] [(gS []).dp 1] [] ∧ (gS []).fcore.spills.length < 64 ∧ (gS []).fcore.freeLoc.isSome = true) ∧
    ((gS []).onFc fun k => { k with spills := List.replicate 64 spilled }).fcore.spills.length = 64 ∧
    (((gS []).onFc fun k => { k with spills := [spilled] }).grants 0 [] [(gS []).dg 1] [] ∧
      ((gS []).onFc fun k => { k with spills := [spilled] }).fcore.spills.find? (fun e => e.ctx = 0 && e.dest = .g 1) = some spilled) := by
  unfold State.grants; decide +kernel

/-- WAITT on channel 0's counter, which stands at 3 with number 2 poisoned. -/
def counted (n : Int) (k : Ctx) : State :=
  { State.reset with focus := .ctx 0 0, cores := [(0, { ctxs := [(0, { k with g := [(2, num n)] })], ch := [(0, { done := 3, issued := 3, bad := [2] })] })] }
def barS (bar : Barrier) (g : Tab GReg) : State := { gS g with barriers := [(255, bar)] }
theorem witness_WaitsAndBarriers :
    ((counted 1 run0).grants 0 [.g 2 false] [] [.g 2 false] ∧ (counted 1 run0).selBad 1 = false ∧ 1 ≤ (counted 1 run0).counter 0 0 0 ∧
      (counted 1 run0).badNums 0 0 0 1 [] [] = []) ∧
    (2 ≤ (counted 2 run0).counter 0 0 0 ∧ (counted 2 run0).badNums 0 0 0 2 [] [] = [2]) ∧ (counted 4 run0).counter 0 0 0 < 4 ∧
    ((counted 4 run0).grants 0 [] [(gS []).dg 1] [] ∧ (counted 4 run0).old.decl = false ∧ (counted 4 { run0 with decl := true }).old.decl = true) ∧
    ((gS []).selBad 0x26 = true ∧ (gS []).old.status ≠ .waiting .waitt) ∧
    ((barS { mask := 3, arr := [(1, 1)] } [(2, num 255)]).grants 0 [.g 2 false] [(gS []).dg 1] [.g 2 false] ∧ 255 < 256 ∧
      (barS { mask := 3, arr := [(1, 1)] } []).barrier 255 = { mask := 3, arr := [(1, 1)] } ∧ (3 : BitVec 640).getLsbD 0 = true ∧
      (2 : BitVec 640).getLsbD 0 = false) ∧
    ((barS { gen := 1 } [(2, num 255)]).grants 0 [srcA tri, srcB tri] [] [srcA tri, srcB tri] ∧
      ((barS { gen := 1 } [(2, num 255)]).valA tri).toNat < 256 ∧ ((gS []).g 3).val.toNat < 1 ∧ 1 ≤ (num 1).val.toNat) := by
  unfold State.grants; decide +kernel
def through (b : Barrier) (n : Nat) : Bool :=
  (List.range 640).all fun c => !b.mask.getLsbD c || n < b.arr.get c 0 && !b.flying.contains (c, (b.gen + n) % 2 ^ 64)
/-- A barrier of cores 0 and 1, with a generation and a half, no arrival of core 1, or one that is still in its flush. -/
theorem witness_WaitsAndBarriers_gen :
    (through { mask := 3, arr := [(0, 2), (1, 2)] } 0 ∧ through { mask := 3, arr := [(0, 2), (1, 2)] } 1) ∧
    (through { mask := 3, arr := [(0, 2), (1, 1)] } 0 ∧ ¬ through { mask := 3, arr := [(0, 2), (1, 1)] } 1) ∧
    ¬ through { mask := 3, arr := [(0, 2)] } 0 ∧ ¬ through { mask := 3, arr := [(0, 2), (1, 2)], flying := [(0, 0)] } 0 ∧
    (1, 0) ∉ ([(0, 0), (1, 0)] : List (Nat × Nat)).erase (1, 0) ∧ ({ mask := 3, arr := [(0, 1)] } : Barrier).arr.any (fun p => 0 < p.2) = true := by
  decide +kernel
theorem witness_WaitsAndBarriers_barm_bad : ∃ bs, (barS {} []).readNow (acc0 (gS []) .load) (2 ^ 47) 80 = .ready bs ∧
    (bs.any (·.2)) = true := met_ready (by decide +kernel)
theorem witness_WaitsAndBarriers_barm : ∃ bs, (barS {} [(2, num 255), (3, num (spadVa 0))]).readNow (acc0 (gS []) .load) (spadVa 0) 80 = .ready bs ∧
    (((barS {} []).barrier 255).arr.all (fun p => p.2 = 0) && bs.all (fun x => x.2 = false) && (gS []).quiet) = true :=
  met_ready (by decide +kernel)

def storeReq : Req :=
  { id := 1, agent := .ctx 0 0, kind := .store, asid := 0, pieces := [.raw 0x10000 [7] true], ret := .none, atom := none, key := 0,
    rstep := 0, stage := .sent, src := 0, homes := [], deps := [], decl := [] }
/-- An earlier store of the context is on its way. -/
theorem witness_WaitsAndBarriers_quiet : ({ gS [] with net := [{ storeReq with id := 0 }] } : State).quiet = false := by decide +kernel
def regS (n : Nat) : State := ctxS { run0 with regions := List.replicate n { handler := 8, id := 1, hdepth := 0, since := 1 } }
theorem witness_RegionsAndTraps : (gS []).grants 0 [] [] [] ∧ (regS 3).old.regions.length < 4 ∧ 4 ≤ (regS 4).old.regions.length ∧
    ((regS 1).old.regions.getLast? = some { handler := 8, id := 1, hdepth := 0, since := 1 } ∧ (regS 1).storesDone 1 = true) ∧
    ({ regS 1 with nextId := 2, net := [storeReq] } : State).storesDone 1 = false ∧ (regS 0).old.regions = [] ∧
    (0 < (ctxS { run0 with trap := { hdepth := 1 } }).old.trap.hdepth ∧ (gS []).old.target = none) ∧ (gS []).old.trap.hdepth = 0 := by
  unfold State.grants; decide +kernel

theorem witness_ControlRegisters : (gS []).grants 0 [] [(gS []).dg 1] [] ∧ (gS []).old = (gS []).cur ∧ WF.csrKnown 0x24 = true ∧
    (ctxS { run0 with decl := true }).cur.decl = true ∧ WF.cpatOk (0 / 2 ^ 32 % 16 + 1) (0 % 2 ^ 32) = true ∧
    WF.cpatOk (3 / 2 ^ 32 % 16 + 1) (3 % 2 ^ 32) = false ∧
    (gS [(2, num 1)]).grants 0 [.g 2 false] [] [.g 2 false] ∧ (∀ x ∈ [0x03, 0x1B, 0x12, 0x25, 0x20, 0x22, 0x04, 0x40, 0x24, 0x18, 0x1A, 0x08, 0x29],
      ((x : Int) % 128).toNat = x) ∧ ((gS []).g 2).val.getLsbD 0 = false ∧ (num 1).val.getLsbD 0 = true ∧
    (∀ x ∈ [0x00, 0x02, 0x04, 0x39], (gS []).csr (gS []).cur x < 2 ^ 6) ∧ ((gS []).cur.gb < 32 ∧ (gS []).cur.vb < 32 ∧ (gS []).cur.pb < 8) ∧
    (0x0B000009 / 2 ^ 24 = 0x0B ∧ 0x0B000009 % 2 ^ 7 = 9) ∧ 0x0E000031 / 2 ^ 24 = 0x0E ∧ 0x0E000031 % 2 ^ 7 = 0x31 := by
  unfold State.grants; decide +kernel
theorem witness_ControlRegisters_cbtbase : ∃ bs, (gS [(2, num (spadVa 1))]).readNow { acc0 (gS []) .load with need := some 5 } (spadVa 0) 512 = .ready bs ∧
    (bs.length = 512 && (gS []).quiet) = true := met_ready (by decide +kernel)

/-- An event queue of the die that is full. -/
def manyRecs (s : State) : State := s.onDie 0 fun k => { k with evq := List.replicate 4096 { kind := 1, words := [] } }
theorem witness_ReleasedEffects : (gS []).grants 0 [srcA tri, srcB tri] [] [srcA tri, srcB tri] ∧ (gS []).old.decl = false ∧
    ((gS []).evLoad 0 < 4096 ∧ (ctxS { run0 with decl := true }).evLoad 0 < 4096 ∧ (ctxS { run0 with decl := true }).old.decl = true) ∧
    4096 ≤ (manyRecs (gS [])).evLoad 0 ∧ (gS []).cur.task = some task0 ∧ (gS []).grants 0 [] [] [] ∧
    (gS [(2, num 1)]).grants 0 [.g 2 false] [] [.g 2 false] ∧ (gS []).fcore.stage < 1 ∧ 0 ≤ (gS []).fcore.stage := by
  unfold State.grants; decide +kernel

def lossS (e : Int) (sat fte : Bool) (cnt : Nat) : State :=
  ctxS { run0 with sat, ls := { e := BitVec.ofInt 8 e, min := 8, max := 11, int := 2, cnt := BitVec.ofNat 32 cnt, fte } }
theorem witness_YieldEndAndScale : (gS []).grants 0 [] [] [] ∧ (gS []).old = (gS []).cur ∧ (1 : Int) ≤ 1 ∧
    ((gS []).cur.pend = [] ∧ (gS []).flushDone = true ∧ (gS []).cur.decl = false) ∧ owes.cur.pend ≠ [] ∧
    ((ctxS { run0 with decl := true }).flushDone = true ∧ (ctxS { run0 with decl := true }).cur.decl = true) ∧
    owes.flushDone = false ∧
    (∀ e ∈ [(9 : Int), 8], (lossS e true true 0).grants 0 [srcA { tri with a := 0 }] [(gS []).dp 1] [srcA { tri with a := 0 }]) ∧
    ((lossS 9 true false 0).cur.sat = true ∧ (8 : BitVec 8).toInt < (lossS 9 true false 0).cur.ls.e.toInt) ∧
    ((lossS 8 true false 0).cur.ls.e.toInt ≤ (8 : BitVec 8).toInt ∧ (lossS 8 true true 0).cur.ls.fte = true) ∧
    ((lossS 10 false false 1).cur.ls.e.toInt < (11 : BitVec 8).toInt ∧ 2 ≤ ((lossS 10 false false 1).cur.ls.cnt + 1).toNat ∧
      ((lossS 10 false false 0).cur.ls.cnt + 1).toNat < 2) ∧ (11 : BitVec 8).toInt ≤ (lossS 11 false false 0).cur.ls.e.toInt := by
  unfold State.grants; decide +kernel
/-- END with a result of its own bundle on the way, an ICINV of length 0, and one behind a store. -/
theorem witness_YieldEndAndScale_own :
    (let s : State := { owes with before := some (run0, 2) }
     s.grants 0 [] [] [] ∧ s.old.pend = [] ∧ s.flushDone = true ∧ s.old.decl = false ∧ s.cur.pend ≠ []) ∧
    ((gS []).grants 0 [srcA tri, srcB tri] [] [srcA tri, srcB tri] ∧ ((gS []).g 3).val = 0 ∧ ((gS [(3, num 1)]).g 3).val ≠ 0) := by
  unfold State.grants; decide +kernel

def trapS (t : TrapRegs) (r : List Region) : State := ctxS { run0 with trap := t, regions := r }
theorem witness_TrapEntry : ((trapS { vecEn := true, hdepth := 14 } []).ctx 0 0).regions = [] ∧
    (((trapS { vecEn := true, hdepth := 14 } []).ctx 0 0).trap.crit = false ∧ ((trapS { vecEn := true, hdepth := 14 } []).ctx 0 0).trap.hdepth < 15 ∧
      ((trapS { vecEn := true, hdepth := 14 } []).ctx 0 0).trap.vecEn = true) ∧
    ((trapS { crit := true } [{ handler := 8, id := 1, hdepth := 0, since := 1 }]).ctx 0 0).trap.crit = true ∧ ((trapS { hdepth := 15 } []).ctx 0 0).trap.hdepth = 15 ∧
    ((trapS {} []).ctx 0 0).trap.vecEn = false := by decide +kernel

def inRegion : Region := { handler := 8, id := 1, hdepth := 0, since := 1 }
theorem witness_UnwindsToHandler : ((trapS {} [inRegion]).ctx 0 0).trap.crit = false ∧ 10 ∈ [4, 5, 10] ∧ ((trapS {} [inRegion]).ctx 0 0).regions ≠ [] ∧
    (let s := ctxS { run0 with status := .waiting (.unwinding 4 0 0 0), regions := [inRegion] }
     (s.ctx 0 0).status = .waiting (.unwinding 4 0 0 0) ∧ (s.ctx 0 0).regions.getLast? = some inRegion ∧ s.settled 0 0 1 = true) := by
  decide +kernel

/-- The hypotheses of a vector clause: full sources, and a register with the lanes it asks for. -/
def vv : State := vS [(2, vec 8 [127, -128]), (3, vec 8 [1, -1]), (1, vec 8 [0, 1])]
theorem witness_VectorArithmetic : vv.grants 0 (vecSrcs (vv.maskOf tri) 8 [.v 2 false, .v 3 false] false 1) [vv.dv 1] [] ∧
    vv.grants 0 (vecSrcs (vv.maskOf tri) 8 [.v 2 false, .v 3 false] true 1) [vv.dv 1] [] ∧
    (∀ m < 256, lane 8 (vec 8 [-128, 127]).val m = sx (lane 8 (vv.v 2).val m + lane 8 (vv.v 3).val m) 8) ∧
    (let e : Int := 2 * (2 ^ 15 * 1 - 0 * 2 ^ 16); e ≤ 2 ^ 16 ∧ -2 ^ 16 ≤ e ∧ (e = 2 ^ 16 ∨ e = -2 ^ 16 → (0 : Int) % 2 = 0)) := by
  unfold State.grants; decide +kernel

theorem witness_VectorShiftsAndWidths : vv.grants 0 (vecSrcs (vv.maskOf tri) 16 [.v 2 false] false 1) [vv.dv 1] [] ∧
    (let e : Int := 2 * (5 - 2 * 2 ^ 1); e ≤ 2 ^ 1 ∧ -2 ^ 1 ≤ e ∧ (e = 2 ^ 1 ∨ e = -2 ^ 1 → (2 : Int) % 2 = 0)) ∧
    (∀ m < 128, lane 16 (vec 16 [0, 255]).val m = sx (lane 16 (vec 16 [0, 255]).val m) 16) := by unfold State.grants; decide +kernel

theorem witness_VectorLanesMove : vv.grants 0 [.v 2 false, .v 3 false] [.k 1] [.v 2 false, .v 3 false] ∧
    (∀ j < 256, (BitVec.allOnes 256).getLsbD j = true) ∧ vv.grants 0 [.v 2 false, .g 3 false] [vv.dg 1] [] ∧
    vv.grants 0 [.g 2 false, .g 3 false, .v 1 true] [vv.dv 1] [] ∧ (8 = 8 ∧ (1 < 8 ∧ 2 ^ (8 - 1 - 1) ≤ 127 ∧ 127 < 2 ^ (8 - 1))) ∧
    vv.grants 0 [] [.k 7] [] := by unfold State.grants; decide +kernel

theorem witness_VectorReductionsAndTables : vv.grants 0 [.v 2 false] [vv.dv 1] [] ∧
    ((7 ≤ 8 - 1 ∧ (-2 ^ (8 - 1 - 7) ≤ (0 : Int) ∧ (0 : Int) < 2 ^ (8 - 1 - 7))) ∧ (6 < 8 - 1 ∧ ((-2 : Int) < -2 ^ (8 - 2 - 6) ∨ (2 : Int) ^ (8 - 2 - 6) ≤ -2))) ∧
    (∀ j < 32, (num 0x04030201).val.toNat / 2 ^ (8 * (j / 8)) % 2 ^ 8 ≤ 4) ∧ (run0.codebook false 255).2 = false ∧
    vv.grants 0 (vecSrcs (vv.maskOf tri) 32 [.v 2 false, .g 3 false] false 1) [vv.dv 1] [] := by unfold State.grants; decide +kernel

/-! Matrix and transfer maps. -/

def rd (fmt : Nat) : Stream := { bound := true, desc := desc fmt 0x10000 4 }
def wrs (fmt feed : Nat) : Stream := { bound := true, write := true, feed, desc := desc fmt 0x10000 4 }
/-- Context 0 owns tiles 1 and 2 and a sparse or dense i8 buffer 1; its streams are `q`. -/
def mxS (sparse : Bool) (q : Tab Stream) : State :=
  { State.reset with focus := .ctx 0 0, cores := [(0, { ctxs := [(0, { run0 with q })], acc := [(1, { claim := some 0 }), (2, { claim := some 0 })], bufs := [(1, { owner := some 0, fmt := 1, sparse })] })] }

theorem witness_MatrixLoads : (mxS false [(2, rd 1), (3, rd 5)]).grants 0 [] [] [] ∧ (mxS false [(2, rd 1)]).fcore.bufRead 1 = false ∧
    ((mxS false [(2, rd 1)]).loadOk 1 2 none).isSome = true ∧ ((mxS false [(2, rd 1), (3, rd 5)]).loadOk 1 2 (some 3)).isSome = true ∧
    dStrict ((mxS false [(2, rd 1), (3, rd 5)]).cur.qAt 3).desc = false := by unfold State.grants; decide +kernel
/-- A strict descriptor whose 8,192 metadata bytes are there, legal (0 below 1) or not, or still to come, or never. -/
def strictS (b : Int) (n next : Nat) : State :=
  mxS false [(2, rd 1), (3, { rd 5 with desc := desc 5 0x10000 4 ||| (1 <<< 79), buf := List.replicate n (b, false), next })]
def strictOwn (s : State) : List Elem := ((s.cur.qAt 3).buf.drop (s.takenBefore 3)).take (64 * 128)
def strictLegal (e : Elem) : Bool := (e.1 % 4).toNat < (e.1 / 4 % 4).toNat && e.1 % 256 / 16 = 0
theorem witness_MatrixLoads_strict : (strictS 4 0 0).grants 0 [] [] [] ∧ (strictS 4 0 0).fcore.bufRead 1 = false ∧
    dStrict ((strictS 4 0 0).cur.qAt 3).desc = true ∧ ((strictS 4 0 0).loadOk 1 2 (some 3)).map (·.2) = some 128 ∧
    ((strictOwn (strictS 4 8192 0)).length = 64 * 128 ∧ (strictOwn (strictS 4 8192 0)).all strictLegal = true) ∧
    (strictOwn (strictS 0 8192 0)).any (fun e => !strictLegal e) = true ∧
    ((strictOwn (strictS 4 8191 0)).length < 64 * 128 ∧ ((strictS 4 8191 0).cur.qAt 3).ended = false ∧
      ((strictS 4 8191 (2 ^ 40)).cur.qAt 3).ended = true) := by
  unfold State.grants; decide +kernel

theorem witness_MatrixRuns : (mxS false [(2, rd 1)]).grants 0 [] [.acc 1] [] ∧
    ((mxS false [(2, rd 1)]).runOk { tri with ext := some 0x1007F } false).isSome = true ∧ ((mxS false []).fcore.buf 1).ready = true ∧
    ((mxS true [(1, wrs 1 0), (2, rd 1), (3, wrs 5 0)]).writeStream 1 = some (wrs 1 0) ∧
      (mxS true [(1, wrs 1 0), (2, rd 1), (3, wrs 5 0)]).readStream 2 = some (rd 1) ∧
      (mxS true [(1, wrs 1 0), (2, rd 1), (3, wrs 5 0)]).writeStream 3 = some (wrs 5 0) ∧ ((mxS true []).fcore.buf 1).sparse = true ∧
      ((mxS true []).fcore.buf 1).owner = some 0 ∧ dFmt (rd 1).desc = ((mxS true []).fcore.buf 1).fmt ∧ dFmt (wrs 5 0).desc = 5 ∧
      (mxS true []).fcore.bufRead 1 = false) := by unfold State.grants; decide +kernel

theorem witness_TilesDrainAndMove : (mxS false []).claimed 1 = true ∧ (1 + 2 ^ 26) % 2 = 1 ∧
    (∀ had < 4, (1 + 2 ^ 7 + had * 2 ^ 8) / 2 ^ 8 % 2 ^ 2 = had ∧ (1 + 2 ^ 7 + had * 2 ^ 8) / 2 ^ 7 % 2 = 1) ∧
    (let r : Int := 5 - 2 * 2 ^ 1; (0 ≤ r ∧ r < 2 ^ 1) ∧ 2 * r ≤ 2 ^ 1 ∧ -2 ^ 1 ≤ 2 * r ∧ (2 * r = 2 ^ 1 ∨ 2 * r = -2 ^ 1 → (2 : Int) % 2 = 0)) ∧
    (mxS false []).grants 0 [.acc 1 false] ([(mxS false []).dv 1, (mxS false []).dv 2] ++ [.acc 1]) [] ∧
    (((mxS false []).tile 1).row 127).length = 128 ∧ (2 ^ 26) % 2 = 0 ∧ (mxS false [(1, wrs 2 0)]).writeStream 1 = some (wrs 2 0) ∧ (wrs 2 0).feed ≠ 2 ∧
    (mxS false []).claimed 2 = true ∧ (mxS false []).grants 0 [] [.acc 1] [] ∧ (mxS false []).grants 0 [.acc 1 false] [.acc 2] [] ∧
    (mxS false []).grants 0 [.acc 1 false] [(mxS false []).dg 1] [] := by unfold State.grants; decide +kernel

def item (cmd : EngCmd) : EngItem := { num := 1, after := 1, core := 0, ctx := 0, task := 0, asid := 0, key := 0, rstep := 0, cmd }
def copyItem : EngItem := item (.copy (desc 1 (spadVa 0) 4) (desc 1 (spadVa 64) 4) (some 0) 0 0 0)
def tlS (k : Core) : State := { State.reset with focus := .ctx 0 0, cores := [(0, { k with ctxs := [(0, { run0 with q := [(2, { rd 1 with next := 4 }), (3, { rd 1 with desc := desc 1 (spadVa 0) 4 })] })] })] }
def chS (i : EngItem) : State := tlS { ch := [(3, { issued := 1, queue := [i] })] }

/-- A pattern image of one field at the start of the scratchpad. -/
def patS : State := (gS [(3, num (spadVa 0))]).poke (spadKey 0 0) [0x10, 0, 0, 0, 0, 0, 0, 0, 0x00, 0x01]
theorem witness_StreamsAndDescriptors_spat : ∃ bs, patS.readNow (acc0 patS .load) (spadVa 0) 72 = .ready bs ∧
    (bs.all (fun b => b.2 = false) && (patternOf (bs.map (·.1))).isSome && patS.quiet) = true := met_ready (by decide +kernel)
theorem witness_StreamsAndDescriptors_bad : ∃ bs, patS.readNow (acc0 patS .load) (2 ^ 47) 72 = .ready bs ∧ (bs.any (·.2)) = true :=
  met_ready (by decide +kernel)
theorem witness_StreamsAndDescriptors_dset : ∃ bs, patS.readNow (acc0 patS .load) (spadVa 0) 128 = .ready bs ∧
    (bs.all (fun b => b.2 = false) && !patS.cur.descBusy 1) = true := met_ready (by decide +kernel)
theorem witness_StreamsAndDescriptors : (dS (desc 1 0x10000 4)).grants 0 [] [(gS []).dg 1] [] ∧
    (((gS []).cur.qAt 2).bound = false ∧ ((gS []).cur.qAt 2).freed = false ∧ dBad ((dS (desc 1 0x10000 4)).cur.dAt 0) false = false ∧
      dFmt ((dS (desc 1 0x10000 4)).cur.dAt 0) ≠ 9 ∧ (gS []).cur.descBusy 0 = false) ∧ (9 / 2 % 2 ^ 2 = 0 ∧ 3 / 2 % 2 ^ 2 ≠ 0) ∧
    patS.grants 0 [srcB tri] [] [srcB tri] ∧
    ((mxS false [(2, rd 1)]).streamUsed 0 0 2 = false ∧ ((mxS false [(2, rd 1)]).cur.qAt 2).write = false ∧ (gS []).grants 0 [] [] []) ∧
    (((mxS false [(2, rd 1)]).cur.qAt 2).bound = true ∧ ((mxS false [(2, rd 1)]).cur.qAt 2).freed = false ∧ ({ rd 1 with freed := true } : Stream).freed = true) ∧
    (dBad (desc 15 0x10000 4) false = true ∧ (ctxS { run0 with descPend := [(0, 0)] }).cur.descBusy 0 = true ∧ patternOf [] = none) ∧
    ((chS (item (.cpym 2 0 0 0 false))).streamUsed 0 0 2 = true ∧ (wrs 1 1).write = true ∧ (wrs 1 1).bytesLeft = 0 ∧
      ({ wrs 1 1 with bytes := [(0, false)] } : Stream).bytesLeft = 1 ∧ ({ wrs 1 1 with bytes := List.replicate 4 (0, false) } : Stream).bytesLeft = 4) ∧
    (((mxS false [(2, rd 1)]).old.qAt 2).feed < 4 ∧ ((mxS false [(2, rd 1)]).old.qAt 2).ch < 4 ∧ ((mxS false [(2, rd 1)]).old.qAt 2).seq < 2 ^ 32) ∧
    (gS []).grants 0 [srcA tri] [] [srcA tri] ∧ (ctxS { run0 with descPend := [(2, 0)] }).cur.descBusy 2 = true := by
  unfold State.grants; decide +kernel

def mldnWord : Nat := (encode (.mldn { tri with slot := 5, pred := 0, d := 1, a := 2, b := 0 })).headD 0
def cpymS : State := (mxS false [(2, { rd 1 with feed := 2 })]).onCur fun k => { k with g := [(3, num mldnWord)], d := [(2, desc 1 0x10000 4)] }
theorem witness_EngineCommandsIssue : (dS (desc 1 0x10000 4)).grants 0 [] [(gS []).dg 1] [] ∧
    copyBad (desc 1 0x10000 4) (desc 2 0x20000 4) 5 false = false ∧ (dS (desc 1 0x10000 4)).cur.descBusy 0 = false ∧
    (followOf (mldnWord % 2 ^ 32) (mldnWord / 2 ^ 32)).isSome = true ∧ cpymS.grants 0 [srcB tri] [(gS []).dg 1] [srcB tri] ∧
    (cpymS.readStream 2 = some { rd 1 with feed := 2 } ∧ dBad (desc 1 0x10000 4) false = false ∧ dCount (desc 1 0x10000 4) * fmtWidth 1 ≤ 131072 ∧
      (cpymS.loadOk 1 2 none).isSome = true) ∧
    vv.grants 0 [srcA tri, .v 3 false] [vv.dv 1, vv.dv 2] [srcA tri] ∧
    vv.grants 0 [srcA tri, .v 3 false, .v 4 true, .v 5 true] [vv.dg 1] [srcA tri] ∧
    vv.grants 0 [srcA tri, srcB tri, .g 4 true] [vv.dg 1] [srcA tri, srcB tri, .g 4 true] ∧
    ((num (2 ^ 57 - 1)).val.toNat < 2 ^ 57 ∧ (num (2 ^ 50 - 1)).val.toNat < 2 ^ 50) ∧ vv.grants 0 [srcA tri] [vv.dg 1] [srcA tri] := by
  unfold State.grants; decide +kernel

/-- The four follow-ons of a CPYM, whose other streams and tile are there, and a misaligned grid descriptor's address. -/
theorem witness_EngineCommandsIssue_follow :
    (let word (i : Instr) : Nat × Nat := match encode i with | [w, e] => (w, e) | ws => (ws.headD 0, 0)
     ∀ i ∈ [Instr.mldn { tri with slot := 5, d := 1, a := 2, b := 0 }, .mldw { tri with slot := 5, d := 1, a := 2, b := 0 },
         .mlds { tri with slot := 5, d := 1, a := 2, b := 3 }, .mrun { tri with slot := 5, d := 1, a := 2, b := 0, ext := some 0x1007F }],
       (followOf (word i).1 (word i).2).isSome = true) ∧
    ((mxS false [(2, rd 1), (3, rd 5)]).loadOk 1 2 (some 3)).isSome = true ∧
    ((mxS false [(2, rd 1)]).runOk { tri with ext := some 0x1007F } true).isSome = true ∧ 17 % 32 ≠ 0 := by decide +kernel
theorem witness_EngineCommandsIssue_grid : patS.quiet = true ∧ spadVa 0 % 32 = 0 ∧
    ∃ bs, patS.readNow (acc0 patS .load) (spadVa 0) 288 = .ready bs ∧ (bs.length == 288) = true :=
  ⟨by decide +kernel, by decide +kernel, met_ready (by decide +kernel)⟩

/-! Helper and distributor cores. -/

def held (h : Helper) (k : Ctx) : State := { State.reset with focus := .loader 0, cores := [(0, { loader := { h with running := true }, ctxs := [(0, k)] })] }
theorem witness_HelperControl : (held {} run0).focus.helper? = some (0, false) ∧
    (∀ v ∈ [1, 2 ^ 31 - 1], 0 < ((held {} run0).setX 5 v).x 5 ∧ ((held {} run0).setX 5 v).x 5 < 2 ^ 31) ∧ (held {} run0).x 5 = 0 ∧
    2 ^ 31 ≤ ((held {} run0).setX 5 (2 ^ 31)).x 5 ∧ (((held {} run0).setX 5 (2 ^ 25 - 1)).x 5 < 2 ^ 25 ∧ 2 ^ 25 ≤ ((held {} run0).setX 5 (2 ^ 25)).x 5) ∧
    ((held {} run0).setX 5 63).x 5 < 64 ∧ ((held {} run0).evLoad 0 < 4096 ∧ ((held {} run0).ctx 0 0).task = some task0) ∧
    ((held {} run0).helper 0 false).decl = false ∧ ((held { decl := true } run0).helper 0 false).decl = true ∧
    ((0 ≤ (held {} run0).counter 0 0 0 ∧ (held {} run0).counter 0 0 0 < 0 + 2 ^ 31) ∧ (held {} run0).badNums 0 0 0 0 [] [] = []) ∧
    ((held {} run0).counter 0 0 0 < 1 ∧ 1 < (held {} run0).counter 0 0 0 + 2 ^ 31) := by decide +kernel

/-- A block of lx.cpy in the loader's data store. -/
def blockS : State := ((held {} run0).poke (dstoreKey 0 0 0)
  (leBytes 128 (desc 1 0x10000 4).toNat ++ leBytes 128 (desc 2 0x20000 4).toNat)).setX 11 0x10000
theorem witness_HelperStreams_cpy : ∃ bs u, blockS.hartRead .load (blockS.x 11) 272 = .got bs u ∧
    (blockS.x 11 % 8 = 0 && blockS.x 12 < 4 && u.focus = blockS.focus &&
      !cpyBlockBad bs (BitVec.ofNat 1024 (leNat (bs.take 128))) (BitVec.ofNat 1024 (leNat ((bs.drop 128).take 128))) (leNat ((bs.drop 256).take 4)) false &&
      !copyBad (BitVec.ofNat 1024 (leNat (bs.take 128))) (BitVec.ofNat 1024 (leNat ((bs.drop 128).take 128))) (leNat ((bs.drop 256).take 4)) false) = true :=
  met_got (by decide +kernel)
/-- An i64 stream with n elements and half of the next one. -/
def pushQ (n : Nat) : Stream :=
  { bound := true, feed := 1, desc := desc 4 0x10000 4, buf := List.replicate n (0, false), bytes := List.replicate 4 (0, false) }
def pulled (q : Stream) : State := held { sel := some (0, 2) } { run0 with q := [(2, q)] }
def grown (q : Stream) : Stream := ({ q with bytes := q.bytes ++ (leBytes 4 ((pulled q).x 5)).map fun b => (b, false) } : Stream).cut 4
theorem witness_HelperStreams : ((pulled (pushQ 9)).helper 0 false).sel = some (0, 2) ∧ (grown (pushQ 9)).buf.length ≤ (pushQ 9).cap ∧
    ((pulled {}).ctx 0 0 |>.qAt 2).bound = false ∧ ((pulled (pushQ 9)).ctx 0 0 |>.qAt 2).freed = false ∧
    4 ≤ (({ wrs 3 1 with buf := [(7, false)] } : Stream).packFour 4).bytes.length ∧ ((wrs 3 1).packFour 4).bytes.length < 4 ∧
    (wrs 3 1).closing = false := by decide +kernel
theorem witness_HelperStreams_fits : (pushQ 2047).fitsFour = true ∧ (pushQ 2048).fitsFour = false := by decide +kernel
theorem witness_HelperStreams_room : (pushQ 2048).cap = 2048 ∧ (grown (pushQ 2048)).buf.length = 2049 ∧ (grown (pushQ 2047)).buf.length = 2048 := by
  decide +kernel

theorem witness_HelperExceptions : (held {} run0).focus.helper? = some (0, false) := rfl

theorem witness_DistributorExceptions : distr.focus = .dist 0 ∧ (distr.die 0).intrap = false ∧
    ((distr.onDie 0 fun k => { k with intrap := true }).die 0).intrap = true ∧ (distr.die 0).role = false ∧
    ((distr.onDie 0 fun k => { k with intrap := true, role := true }).die 0).role = true ∧ (distr.die 0).lost = false := by decide +kernel

theorem met_put {g : Put} (h : (match g with | .done _ => true | _ => false) = true) : ∃ u, g = .done u := by
  cases g with
  | done u => exact ⟨u, rfl⟩
  | _ => cases h

theorem witness_BaseInstructionRows : (∀ n ∈ [1, 2, 4, 8], (match blockS.hartRead .load (0x14000 - n) n with
      | .got bs u => leNat bs < 2 ^ (8 * n) && u.focus = blockS.focus | _ => false) = true) ∧
    (match blockS.hartWrite 0x13FFF 1 0 with | .done _ => true | _ => false) = true ∧
    (match blockS.hartWrite 0x14000 1 0 with | .fault => true | _ => false) = true ∧ (0x10000 ≤ 0x10000 ∧ 0x13FF8 + mBytes .b8 ≤ 0x14000) ∧
    (match distSpot (2 ^ 62 + 8) 8 with | .phys pa => pa = 8 ∧ pa % 8 = 0 | _ => False) ∧
    ((blockS.helper 0 false).decl = false ∧ ((held { decl := true } run0).helper 0 false).decl = true) ∧
    (distr.focus = .dist 0 ∧ (distr.die 0).extPending = false ∧ ((distr.onDie 0 fun k => { k with kicks := 1 }).die 0).extPending = true) := by
  refine ⟨by decide +kernel, by decide +kernel, by decide +kernel, by decide, ?_, by decide +kernel, by decide +kernel⟩
  exact ⟨rfl, rfl⟩
theorem witness_BaseInstructionRows_amo : ∃ bs u, distr.physGot 8 8 = .got bs u ∧ (leNat bs < 2 ^ 64 && bs = List.replicate 8 0) = true :=
  met_got (by decide +kernel)
/-- Room for a write, a full stream, and the signed order of two words. -/
theorem witness_BaseInstructionRows_less : distr.physRoom 0 8 8 = true ∧
    (distr.onDie 0 fun k => { k with sent := (List.range 32).map fun h => (h, 2 ^ 20) }).physRoom 0 8 8 = false ∧
    (distr.physWrite 0 8 (leBytes 8 1)).2 = false ∧ sx ((2 ^ 63 : Nat) : Int) 64 ≤ sx ((2 ^ 63 - 1 : Nat) : Int) 64 := by decide +kernel
/-- An AMO of the distributor on the ring, on a page that no table maps, and after it. -/
def amoAsk (s : State) (va : Nat) : Asked :=
  s.ask { agent := .dist 0, kind := .atomic, asid := 0 } 0 [] 0 0 [.read va 8] (some (.add, 8, false, 1, none))
theorem witness_BaseInstructionRows_va : ∃ p l u, amoAsk distr (2 ^ 47) = .got p l u ∧
    (fun (p : Prog) (u : State) => p.poisoned && u.focus = .dist 0) p u = true := met_asked (by decide +kernel)
theorem witness_BaseInstructionRows_ring : ∃ p l u, amoAsk { distr with spaces := [(0, { root := 0x100000, owner := 0 })] } 0x00FD000000000000 = .got p l u ∧
    (fun (p : Prog) (u : State) => !p.poisoned && u.focus = .dist 0) p u = true := met_asked (by decide +kernel)
theorem witness_BaseInstructionRows_parked :
    (match amoAsk { distr with spaces := [(0, { root := 0x100000, owner := 0 })] } 0x10000 with
      | .went u => (match amoAsk u 0x10000 with | .still => true | _ => false) | _ => false) = true := by decide +kernel
/-- lr.d x5, (x6) and sc.d x5, x7, (x6): aligned or not, with the reservation or without. -/
def lrWord : Nat := 0x2F + 5 * 2 ^ 7 + 3 * 2 ^ 12 + 6 * 2 ^ 15 + 2 * 2 ^ 27
def scWord : Nat := lrWord + 7 * 2 ^ 20 + 2 ^ 27
def resvS : State := (distr.onDist 0 fun k => { k with resv := some (2 ^ 62 + 8, 8, physKey 8) }).setX 6 (2 ^ 62 + 8)
theorem witness_BaseInstructionRows_lrsc : (lrWord % 2 ^ 7 = 0x2F ∧ lrWord / 2 ^ 27 % 2 ^ 5 = 2 ∧ lrWord / 2 ^ 20 % 2 ^ 5 = 0) ∧
    (scWord % 2 ^ 7 = 0x2F ∧ scWord / 2 ^ 27 % 2 ^ 5 = 3) ∧ resvS.x 6 % 8 = 0 ∧ (distr.setX 6 1).x 6 % 8 ≠ 0 ∧
    (resvS.result? (.dist 0) 0 = none ∧ resvS.owes (.dist 0) 0 = false ∧ (resvS.distCore 0).resv = some (2 ^ 62 + 8, 8, physKey 8)) ∧
    (distr.distCore 0).resv = none ∧ (resvS.distCore 0).reserves (physKey 8) 1 = true ∧ (resvS.distCore 0).reserves (physKey 16) 1 = false := by
  decide +kernel
theorem witness_BaseInstructionRows_lr : ∃ bs u, resvS.hartRead .load (resvS.x 6) 8 = .got bs u ∧ (u.focus = .dist 0) = true :=
  (met_got (P := fun _ u => u.focus = .dist 0) (by decide +kernel)).imp fun _ h => h.imp fun _ h => ⟨h.1, by simpa using h.2⟩
theorem witness_BaseInstructionRows_sc : ∃ u, resvS.hartWrite (resvS.x 6) 8 1 = .done u := met_put (by decide +kernel)

/-- The record at the base of the distributor's instruction memory. -/
def atImem : State := distr.setX 5 (2 ^ 63)
theorem witness_DistributorTickets : ∃ bs u, (atImem.setX 6 19).hartRead .load ((atImem.setX 6 19).x 5) 128 = .got bs u ∧
    ((atImem.setX 6 19).x 6 < 20 && u.focus = .dist 0 && (u.core 19).takes) = true := met_got (by decide +kernel)
def ticketed (q : List Entry) : State := { distr.onDie 0 fun k => { k with bcnt := [(19, 1)] } with cores := [(19, { runq := q })] }.setX 5 (19 * 2 ^ 32 + 1)
def waiting : Entry :=
  { entry := 0, asid := 0, args := 0, argLen := 0, dslots := 512, accm := 0, lpc := none, spc := none, nodeId := 0, g10 := 0
    coords := [], gang := none, ticket := 19 * 2 ^ 32 + 1, released := false, spawned := false, ncc := 0, queue := 0 }
theorem witness_DistributorTickets_rel : (ticketed []).x 0 < 2 ∧ ((ticketed []).die 0).issued 0 = false ∧
    (((ticketed []).die 0).issued ((ticketed []).x 5) = true ∧ ((ticketed []).core 19).runq.any (fun e => e.ticket = 19 * 2 ^ 32 + 1) = false) ∧
    ((ticketed [waiting]).core 19).runq.any (fun e => e.ticket = (ticketed []).x 5 && !e.spawned && !e.released) = true := by decide +kernel

theorem witness_DistributorServices : (distr.focus = .dist 0 ∧ (distr.setX 5 63).x 5 < 64 ∧ (distr.setX 6 1).x 6 < 2) ∧
    (State.homeHere 0 0 = true ∧ State.homeHere 0 (2 ^ 16) = false) ∧ (distr.die 0).kicks = 0 ∧
    ((∀ n < 64, (2 ^ 63 : BitVec 64).getLsbD n = decide (n = 63)) ∧ (distr.die 0).untaken = []) ∧
    ((distr.onDie 0 fun k => { k with evq := [{ kind := 2, words := [1] }] }).die 0).untaken = [{ kind := 2, words := [1] }] := by decide +kernel
theorem witness_DistributorServices_evget : ∃ u, distr.distPut 0 (2 ^ 62) ({ kind := 2, words := [1] } : EvRec).bytes = .done u :=
  met_put (by decide +kernel)
theorem witness_DistributorServices_jwr : ∃ bs u, atImem.hartRead .load (atImem.x 5) 64 = .got bs u ∧ (bs.length = 64 && u.focus = .dist 0) = true :=
  met_got (by decide +kernel)

/-! Events. -/

def landing (due : Nat) : Pend := { owed with dest := .g 1, due, req := 1 }
def reply : Reply := { id := 1, core := 0, x := 0, val := 9, poison := false, sat := 0 }
def repS (due : Nat) : State := { ctxS { run0 with pend := [landing due] } with replies := [reply] }
def fullBuf : State := { ctxS { run0 with pend := landing 3 :: List.replicate 64 { landing 3 with arrived := true, req := 2, held := true } } with replies := [reply] }
theorem witness_ResultsAndArrivals :
    (let p : Pend := { landing 0 with arrived := true }
     p ∈ (ctxS { run0 with pend := [p] }).cur.pend ∧ p.due ≤ (gS []).fcore.cycle ∧ p.landed = true) ∧
    ((repS 3).findReply 1 = some reply ∧ (repS 3).early reply = true ∧ ((repS 3).core 0).heldEarly < 64) ∧
    (fullBuf.early reply = true ∧ fullBuf.inputFree reply = true ∧ 64 ≤ (fullBuf.core 0).heldEarly) ∧
    ({ fullBuf with replies := [reply, { reply with id := 2, input := true }] } : State).inputFree reply = false ∧
    (((repS 0).ctx 0 0).pend = [] ++ landing 0 :: [] ∧ (landing 0).landed = true ∧ (landing 0).due ≤ ((repS 0).core 0).cycle) ∧
    ((due0.ctx 0 0).status = .waiting (.yielding 0) ∧ 0 ≤ (due0.core 0).cycle ∧ (due0.core 0).cycle < 1) ∧
    (((ctxS { run0 with loss := 254 }).ctx 0 0).status = .ready ∧ ((ctxS { run0 with loss := 254 }).ctx 0 0).loss = 254 ∧ (run0).loss ≠ 254) := by
  decide +kernel

/-- One request at its home on the scratchpad of core 0. -/
def homeReq (ps : List Piece) (ret : Ret) (atom : Option (AtomOp × Nat × Bool × Nat × Option Nat)) : Req :=
  { storeReq with kind := .load, pieces := ps, ret, atom, stage := .home }
def netS (r : Req) : State := { gS [] with net := [r], nextId := 2 }
def readReq : Req := homeReq [.read (spadVa 8) 8] (.reg 0 0 (.zext 64)) none
def rawReq : Req := homeReq [.raw (spadVa 8) [7] true] .none none
def addReq : Req := homeReq [.read (spadVa 8) 8] (.reg 0 0 (.zext 64)) (some (.add, 8, false, 1, none))
def ownReq : Req := { addReq with pieces := [.read 0x00FD000000000008 8], ret := .own 3, agent := .dist 0 }
/-- A store to a page of address space 0 that no table maps. -/
def pageReq : Req := homeReq [.raw 0x10000 [7] false] .none none
def unmapped : State := { netS pageReq with spaces := [(0, { root := 0x100000, owner := 0 })] }
theorem witness_AccessesAtHomes :
    ((netS readReq).findReq 1 = some readReq ∧ (netS readReq).mayServe readReq = true ∧ cuts (spadVa 8) 8 = [(spadVa 8, 8)] ∧
      (netS readReq).place readReq.acc (spadVa 8) 8 .raw 1 [] = .at (spadKey 0 8) 0) ∧
    ((netS rawReq).findReq 1 = some rawReq ∧ (netS rawReq).mayServe rawReq = true ∧ (netS rawReq).place rawReq.acc (spadVa 8) 1 .raw 1 [] = .at (spadKey 0 8) 0) ∧
    ((netS addReq).mayServe addReq = true ∧ spadVa 8 % 8 = 0 ∧ atomNew .add false 64 ((netS addReq).nat (spadKey 0 8) 8) 1 none = some 1) ∧
    ((netS ownReq).mayServe ownReq = true ∧ (netS ownReq).place ownReq.acc 0x00FD000000000008 8 .int 1 [] = .at (ringBase + 8) 0) ∧
    ((netS { addReq with pieces := [.read (spadVa 9) 8] }).mayServe { addReq with pieces := [.read (spadVa 9) 8] } = true ∧ spadVa 9 % 8 ≠ 0) ∧
    (unmapped.findReq 1 = some pageReq ∧ unmapped.mayServe pageReq = true ∧ cuts 0x10000 1 = [(0x10000, 1)] ∧ pageReq.unit = 2 ∧
      unmapped.place pageReq.acc 0x10000 1 .raw 1 [] = .fault 0 0 0 ∧ unmapped.canPark [] 0x10000 = true ∧ unmapped.pageParked 0 0x10000 0 = false) ∧
    (match (placed 64 0x0100410380008002).walk 0 0 with | some (.leaf l _) => (placed 64 0x0100410380008002).cached 0 l 0 == none | _ => false) = true := by
  decide +kernel

def sentReq (dep : Nat) : Req := { storeReq with homes := [(0, 1)], deps := [(0, 3, dep)] }
def flushReq : Req := { storeReq with stage := .flush, homes := [(0, 0)] }
theorem witness_PacketsAndAcknowledgements :
    ((netS (sentReq 0)).findReq 1 = some (sentReq 0) ∧ (netS (sentReq 0)).satisfied (sentReq 0) = true ∧ (netS (sentReq 0)).homeTakes (sentReq 0) = true) ∧
    (netS (sentReq 1)).satisfied (sentReq 1) = false ∧
    ((netS { sentReq 0 with stage := .held }).findReq 1 = some { sentReq 0 with stage := .held } ∧
      (netS { sentReq 0 with stage := .held }).ahead { sentReq 0 with stage := .held } .held = []) ∧
    ((netS { flushReq with homes := [] }).sourceBusy { flushReq with homes := [] } = false ∧
      (netS { flushReq with homes := [] }).mayRelease { flushReq with homes := [] } 0 0 [] = true) ∧
    ((netS flushReq).findReq 1 = some flushReq ∧ flushReq.homes ≠ [] ∧ (netS flushReq).maySend flushReq 0 0 = true) ∧
    ({ netS { flushReq with id := 2 } with cores := [(0, { ctxs := [(0, { run0 with pend := [owed] })] })] } : State).maySend { flushReq with id := 2, rel := true } 0 0 = false ∧
    ((netS { flushReq with agent := .window }).findReq 1 = some { flushReq with agent := .window } ∧
      (netS { flushReq with agent := .window }).streamOpen 0 [0] = true ∧ State.streamOpen (State.reset.onDie 0 fun k => { k with sent := [(0, 2 ^ 20)] }) 0 [0] = false) ∧
    ((netS { sentReq 0 with stage := .held }).satisfied { sentReq 0 with stage := .held } = true) ∧
    ((State.reset.onDie 1 fun k => { k with applied := [(0, 3)] }).ackSent 0 1 ≠ ((State.reset.onDie 1 fun k => { k with applied := [(0, 3)] }).die 1).applied.get 0 0 ∧
      State.reset.ackSent 0 1 = (State.reset.die 1).applied.get 0 0) ∧
    ({ State.reset with acks := [(0, 1, 3)] } : State).acks.find? (fun a => a.1 = 0 && a.2.1 = 1) = some (0, 1, 3) ∧ seqGe 3 4 = false := by
  decide +kernel

def numbered5 : MxCmd := { ctx := 0, task := 0, kind := .tally, num := some 5 }
theorem witness_EngineCommandsComplete :
    (((chS copyItem).tl 0 (.ch 3)).queue = copyItem :: [] ∧ (chS copyItem).before? 0 0 1 = true ∧ (chS copyItem).sameTask 0 0 0 = true ∧
      (chS copyItem).descFirst 0 0 0 1 = true ∧
      dCount (desc 1 (spadVa 64) 4) ≤ ((chS copyItem).copyRun 0 3 copyItem (desc 1 (spadVa 0) 4) (desc 1 (spadVa 64) 4) 0 0 4 false).2.1.pos) ∧
    (((chS (item (.streamRd 2 none))).tl 0 (.ch 3)).queue = [item (.streamRd 2 none)] ∧
      ((chS (item (.streamRd 2 none))).strm 0 0 2).total ≤ ((chS (item (.streamRd 2 none))).strm 0 0 2).next) ∧
    ((tlS { wp := [(3, { issued := 1, queue := [item (.put 0 0 0 0 0 false)] })] }).tl 0 (.wp 3)).queue = [item (.put 0 0 0 0 0 false)] ∧
    (((tlS { grid := { issued := 1, queue := [item (.landing 7)] } }).tl 0 .grid).queue = [item (.landing 7)] ∧
      ∀ p ∈ (tlS {} |>.ctx 0 0).pend, p.req ≠ 7 ∧ p.req ≠ 8) ∧
    (16 % 32 ≠ 0 ∧ ({ gS [] with coll := { issued := 1, queue := [item (.coll (spadVa 16))] } } : State).blocked
      { agent := .engine 0 .coll, kind := .load, asid := 0 } (parts (spadVa 16) 32 .raw) 0 [] = none ∧
      State.readsNow { gS [] with coll := { issued := 1, queue := [item (.coll (spadVa 16))] } } { agent := .engine 0 .coll, kind := .load, asid := 0 }
        [(spadVa 16, 32)] = true ∧ State.asked (gS []) (.engine 0 .coll) (item (.coll (spadVa 16))).readTag = false) ∧
    (mxReady 0 [numbered5] = some (numbered5, []) ∧ numbered5.num = some 5) := by decide +kernel

def feedItem : EngItem := item (.streamRd 3 none)
def feedS : State := tlS { ch := [(0, { issued := 1, queue := [feedItem] })] }
def followItem : EngItem := item (.cpym 2 (desc 1 0x10000 4) (mldnWord % 2 ^ 32) (mldnWord / 2 ^ 32) true)
/-- A stream of this descriptor and pattern that its channel feeds; nothing stands before its next element. -/
def feedWith (d : BitVec 1024) (pat : Option Pattern) : State := { State.reset with
  focus := .ctx 0 0, cores := [(0, { ch := [(0, { issued := 1, queue := [feedItem] })], ctxs := [(0, { run0 with q := [(3, { bound := true, desc := d, pat })] })] })] }
def feedOpen (s : State) : Bool :=
  let a := chanAcc 0 0 0 .copyRead
  let ps := plainParts (s.strm 0 0 3).feedParts
  (s.strm 0 0 3).hungry && !s.heldBack 0 (.ch 0) feedItem && !s.asked a.agent feedItem.readTag &&
    (s.blocked a (ps.flatMap fun p => parts p.1 p.2 .raw) 0 []).isNone && s.readsNow a ps
theorem witness_StreamsFeedAndFollow :
    (feedS.strmItem 0 0 3 = some feedItem ∧ (feedS.strm 0 0 3).hungry = true ∧ (feedS.strm 0 0 3).pat = none ∧ dFmt (feedS.strm 0 0 3).desc ≠ 9 ∧
      feedS.before? 0 0 1 = true ∧ feedOpen feedS = true) ∧ feedOpen (feedWith (desc 9 (spadVa 0) 4) none) = true ∧
      feedOpen (feedWith (desc 1 (spadVa 0) 4) (some { period := 8, fields := [(0, 3, true)] })) = true ∧
    ((chS followItem).landedCpym 0 3 = some followItem ∧ (followOf (mldnWord % 2 ^ 32) (mldnWord / 2 ^ 32)).isSome = true ∧
      (chS followItem).sameTask 0 0 0 = true) ∧
    ((loadKs false 1).isSome = true ∧ (loadKs true 1).isSome = true ∧ (pairing 1 false 1).isSome = true) := by decide +kernel
/-- A CPYM that reads four bytes of the scratchpad, or four VQ2 indices, into a stream with room for them. -/
def cpymItem (fmt : Nat) : EngItem := item (.cpym 2 (desc fmt (spadVa 0) 4) 0 0 false)
theorem witness_StreamsFeedAndFollow_cpym : ∀ fmt ∈ [1, 9], (let s := chS (cpymItem fmt)
    let src := desc fmt (spadVa 0) 4
    let ps := (List.range (dCount src)).flatMap (cpymParts src)
    (s.tl 0 (.ch 3)).queue = [cpymItem fmt] ∧ s.before? 0 0 1 = true ∧ dCount src * 8 ≤ (s.strm 0 0 2).room ∧
      s.asked (chanAcc 0 3 0 .copyRead).agent (cpymItem fmt).readTag = false ∧
      s.blocked (chanAcc 0 3 0 .copyRead) (ps.flatMap fun p => parts p.1 p.2 .raw) 0 [] = none ∧
      s.readsNow (chanAcc 0 3 0 .copyRead) ps = true) := by decide +kernel

def released : Entry := { waiting with released := true, coords := List.replicate 8 3 }
def spawnPkt : SpawnPkt := { core := 1, src := (0, 0), after := 1, entry := { waiting with spawned := true, ncc := 0x00FD000000000040 } }
def spawnS : State := { ctxS { run0 with status := .waiting .spawn } with spawns := [spawnPkt] }
def started : HelperReq := { ctx := 0, pc := 8, a0 := 1, a1 := 2, a2 := 3, asid := 0, nodeId := 7 }
theorem witness_TasksStart : ({ runq := [released] } : Core).bindable = some (0, released, []) ∧ released.argLen = 0 ∧ released.gang = none ∧
    released.coords.length ≤ 8 ∧ ({} : Core).bindable = none ∧
    (spawnS.spawns = [spawnPkt] ∧ spawnS.spawnReady spawnPkt = true ∧ spawnS.spawnParked spawnPkt = false ∧
      (match spawnS.addNow (.ctx 0 0) 1 0 0x00FD000000000040 (2 ^ 64 - 1) with | .ready _ _ _ => true | _ => false) = true) ∧
    (((State.reset.onHelper 0 true fun h => { h with starts := [started] }).helper 0 true).starts = started :: [] ∧
      ((State.reset.onHelper 0 true fun h => { h with starts := [started] }).helper 0 true).running = false ∧
      ((State.reset.onHelper 0 true fun h => { h with halted := true }).helper 0 true).halted = true) ∧
    ((gS [(3, num 4)]).grants 0 [srcA tri, srcB tri, .v 1 true] [] [srcA tri, srcB tri, .v 1 true] ∧ 4 % 4 = 0 ∧
      (spawnTarget 0 0x10000).isSome = true ∧ (gS []).cur.task = some task0) := by unfold State.grants; decide +kernel

def win : Window := { v := true, puten := true, geten := true, asid := 0, base := 0x10000, size := 1 }
def pkt (n : Nat) : WinPacket := { win := 3, offset := 0x10000 - n, len := n, data := [], srcPkg := 0, srcCore := 0, srcWp := 0, num := 1 }
def winS (w : Window) : State := { State.reset with windows := [(3, w)] }
theorem witness_WindowTransfers : ((winS {}).window 3).v = false ∧ (win.v = true ∧ win.puten = true ∧ (pkt 1).offset + (pkt 1).len ≤ win.size * 2 ^ 16) ∧
    win.size * 2 ^ 16 < 0x10000 + 1 ∧ (∀ f ∈ (winS win).puts, f.is (pkt 1) = false) ∧ (pkt 1).srcPkg = (winS win).fabric.coords ∧
    ((winS win).asked .window 0 = false ∧ (winS win).blocked { agent := .window, kind := .get, asid := 0 } (parts (win.base + 0x10000) 0 .raw) 0 [] = none ∧
      State.readsNow { winS win with nextId := 1 } { agent := .window, kind := .get, asid := 0 } [(win.base + 0x10000, 0)] = true) ∧
    (let f : PutFlight := { id := 4, p := pkt 1, get := false, done := true, bad := false }
     [f].find? (fun f => f.id = 4 && f.done && !f.get) = some f) := by decide +kernel

/-- Queue 5 in the ring memory with one slot of GN 1 and one tile, or of no tile. -/
def queueS (ext : Byte) : State :=
  { State.reset.poke ringBase (List.replicate 17 0 ++ [0x40] ++ List.replicate 14 0 ++ [ext] ++ List.replicate 94 0 ++ [0x80]) with
    spaces := [(0, { root := 0x100000, owner := 0 })]
    queues := [(5, { v := true, caplog := 3, base := 0x00FD000000000000, heada := 0x00FD000000001000, tail := 1, state := 1 })] }
/-- The same slot with one dependence, on the scratchpad of core 0, that is not met; a poisoned slot. -/
def depS : State :=
  { (queueS 1).poke (ringBase + 18) [2] with cores := [] }.poke (ringBase + 72) (leBytes 8 (0x00FD000000003000 : Nat) ++ leBytes 8 1)
def poisS : State := { queueS 1 with poison := [ringBase / 64] }
theorem witness_NodesAreSelected : (queueS 1).maySelect = true ∧ (queueS 1).mapPend = [] ∧ ((queueS 1).die 0).kicks = 0 ∧ (queueS 1).pend 0 = 0 ∧
    (∀ n < 64, n ≠ 5 → (match (queueS 1).look n with | .nothing => true | _ => false) = true) ∧
    (match (queueS 1).look 5 with | .eligible _ => true | _ => false) = true ∧ (match (queueS 0).look 5 with | .bad 3 true => true | _ => false) = true ∧
    (match poisS.look 5 with | .bad 7 false => true | _ => false) = true ∧ (match depS.look 5 with | .unmet 0 => true | _ => false) = true ∧
    ({ State.reset with mapPend := [1] } : State).maySelect = true ∧
    ((State.reset.onDie 0 fun k => { k with kicks := 0x28 }).distIdle 0 = true ∧ (0x28 : BitVec 64).getLsbD 3 = true ∧
      ∀ n < 3, (0x28 : BitVec 64).getLsbD n = false) ∧
    ((State.reset.poke (pendKey 0) [4]).distIdle 0 = true ∧ (State.reset.poke (pendKey 0) [4]).pend 0 = 4) := by decide +kernel
def share0 : Share := { seq := 1, ncc := 0x00FD000000002000, nccEnd := 0, queue := 5, cev := true, asid := 0, nodeId := 7, mem := 1, ended := 0 }
def oneTile : List Word := [0, 0, 0x4000, 0, 1, 0, 0, 0, 0, 0, 0, 0, 0, 0, 0, 0]
/-- A first log entry: of one tile of one task, or of an offline map. -/
def entry0 : LogEntry := { seq := 1, kind := 0, queue := 5, slot := 0, record := oneTile, map := 0 }
def map0 : LogEntry := { seq := 1, kind := 1, queue := 0, slot := 0, record := [], map := 1 }
def logS (e : LogEntry) : State := ({ State.reset with logSeq := 1 } : State).poke (logEntryKey 1) e.bytes
theorem logS_progress (e : LogEntry) (h : e.bytes.length = 256) : (logS e).progressOf 0 = 0 := by
  rw [logS, Laws.progressOf_poke_log _ _ _ _ h]; rfl
theorem witness_NodesAreDistributed : (logS entry0).logEntry 1 = some entry0 ∧ (logS map0).logEntry 1 = some map0 := by
  simp only [logS]
  rw [Laws.logEntry_poke _ _ _ (by decide +kernel) rfl, Laws.logEntry_poke _ _ _ (by decide +kernel) rfl]
  decide +kernel
theorem witness_NodesAreDistributed_next : (logS entry0).nextEntry 0 = some entry0 ∧ (logS map0).nextEntry 0 = some map0 := by
  have h1 (e : LogEntry) : (logS e).logSeq = 1 := rfl
  simp only [State.nextEntry, h1, logS_progress entry0 (by decide +kernel), logS_progress map0 (by decide +kernel), Nat.zero_add,
    Nat.zero_lt_one, if_true]
  exact witness_NodesAreDistributed
/-- One operation to do next; the journal's newest entry is a NODE. -/
def todoS (t : Todo) : State :=
  (State.reset.poke (journalKey 0 4) [1]).onDie 0 fun k => { k with todo := [t], jtail := 1, bcnt := [(0, 1)] }
theorem witness_NodesAreDistributed_steps :
    (∀ t ∈ [Todo.jwrNode 1 5 0 0, .log entry0, .head 1 5 0, .members 1 5 0, .jwrBind 1 0 0 0, .bind 1 0 0 0, .ticket 1 1, .rel 1, .table 1 1,
        .copy 1 5 0, .jwrDone 1, .progress 1], (todoS t).distLive 0 = true ∧ ((todoS t).die 0).todo = t :: []) ∧
    ((todoS (.head 1 5 0)).queue 5).lastseq ≠ 1 ∧ (todoS (.members 1 5 0)).jfield 0 (((todoS (.members 1 5 0)).die 0).jtail - 1) 4 1 = 1 ∧
    (dieOf 0 = 0 ∧ (State.reset.core 0).takes = true ∧ (({ State.reset with cores := [(0, { withheld := true })] } : State).core 0).takes = false) ∧
    (((todoS (.rel 1)).die 0).issued 1 = true ∧ ({ waiting with ticket := 1 } : Entry).spawned = false ∧ waiting.released = false) ∧
    (Launch.members oneTile {} 0 = [(0, 0, 0)] ∧ Launch.members oneTile {} 1 = []) ∧
    ((State.reset.share 0 1).mem = 0 ∧ ((State.reset.poke (nodeKey 0 1) share0.bytes).share 0 1).mem = 1) := by decide +kernel

def endRec : EvRec := { kind := 1, words := [1, 7, 1, 0] }
/-- A task end, whose node has a ticket and a row of the node table; the end of a spawned task. -/
def endS (r : EvRec) (t : List Todo) : State :=
  ((State.reset.poke (nodeKey 0 1) share0.bytes).poke (ticketKey 0 1) [1]).onDie 0 fun k => { k with evq := [r], todo := t }
def job0 : AddJob := { addr := 0x00FD000000002000, seq := 1, ended := 1, asid := 0, target := 0 }
theorem witness_Ends : (endS endRec []).distLive 0 = true ∧ ((endS endRec []).die 0).todo = [] ∧ ((endS endRec []).die 0).untaken = endRec :: [] ∧
    (endS endRec []).endHeld 0 endRec = false ∧
    (∀ t ∈ [Todo.taskEnd endRec, .ended 1 1, .intent job0, .amo job0, .jwrAdd job0 0 false, .post 1, .fails 1],
      (endS endRec [t]).distLive 0 = true ∧ ((endS endRec [t]).die 0).todo = t :: []) ∧
    ((endS endRec []).ended 0 1 = false ∧ bit (endRec.w 0) 63 = false ∧ (endS endRec []).ticketSeq 0 1 = 1 ∧
      (endS endRec []).share 0 1 = share0 ∧ bit (endRec.w 2) 0 = true ∧ share0.ended < 1 ∧ share0.mem = 1) ∧
    ((State.reset.poke (journalKey 0 0) [0, 0, 0, 0, 5, 0, 0, 0, 1]).onDie 0 fun k => { k with jtail := 1 }).ended 0 1 = true := by decide +kernel
/-- Die 1 finished entry 1, of the node whose completion pair a spawned task names. -/
def nodeS : State := ({ State.reset with logSeq := 1 } : State).poke (nodeKey 1 1) share0.bytes
def spawnEnd : State := nodeS.poke (progressKey 1) (leBytes 4 1)
theorem leBytes_four : (leBytes 4 1).length = 4 := rfl
theorem spawnEnd_nat (i n : Nat) : spawnEnd.nat (nodeKey 1 1 + i) n = nodeS.nat (nodeKey 1 1 + i) n := by
  rw [spawnEnd]
  refine Laws.nat_poke_other _ _ _ _ _ (.inr ?_)
  rw [leBytes_four]
  exact Laws.progress_before_node 1 1 1 i (by decide) (by decide)
theorem spawnEnd_share : spawnEnd.share 1 1 = share0 := by
  have h0 := spawnEnd_nat 0 8
  simp only [Nat.add_zero] at h0
  simp only [State.share, h0, spawnEnd_nat]
  decide +kernel
theorem leNat_one : leNat (leBytes 4 1) = 1 := rfl
theorem nodeS_seq : nodeS.logSeq = 1 := rfl
theorem nodeS_progress (d : Nat) : (nodeS.poke (progressKey d) (leBytes 4 1)).progressOf d = 1 := by
  rw [Laws.progressOf_poke nodeS d 1 (by rw [nodeS_seq]; decide), leNat_one]
theorem spawnEnd_progress : spawnEnd.progressOf 1 = 1 := by rw [spawnEnd]; exact nodeS_progress 1
theorem witness_Ends_spawned : bit (2 ^ 63 : Nat) 63 = true ∧ spawnEnd.shareOf 1 share0.ncc (some 7) = some share0 := by
  refine ⟨by decide +kernel, ?_⟩
  rw [Laws.shareOf_first spawnEnd 1 _ _ spawnEnd_progress (by rw [spawnEnd_share]) (by rw [spawnEnd_share]; decide +kernel), spawnEnd_share]
theorem witness_Ends_fails : ∃ bs, (endS endRec [.post 1]).readNow (distAcc 0 0 .load) 0x00FD000000002008 8 = .ready bs ∧ (gotNat bs == 0) = true :=
  met_ready (by decide +kernel)
theorem witness_Ends_add : (match (endS endRec [.amo job0]).addNow (.dist 0) (readTag (distAcc 0 0 .atomic) job0.addr 8) 0 job0.addr 1 with
    | .ready old bad _ => old == 0 && !bad | _ => false) = true := by decide +kernel
def ringS (head : BitVec 32) (h : Bool) : State :=
  State.reset.onPort 1 fun k => { k with evbase := 4096, evcap := 3, evtail := 8, evhead := head, recs := [{ typ := 4, die := 0, queue := 5, words := [1], held := h }] }
theorem witness_RecordsAndSuspends :
    ((State.reset.onDie 0 fun k => { k with evWait := [endRec] }).die 0).evWait = endRec :: [] ∧ State.reset.evLoad 0 < 4096 ∧
    4096 ≤ (manyRecs State.reset).evLoad 0 ∧ (State.reset.port 1).evbase = 0 ∧
    (((ringS 1 false).port 1).recs.length = 1 ∧ ((ringS 1 false).port 1).linkLost = false ∧ ((ringS 1 false).port 1).evbase ≠ 0 ∧
      (((ringS 1 false).port 1).evtail - ((ringS 1 false).port 1).evhead).toNat < 2 ^ 3) ∧
    (2 ^ 3 ≤ (((ringS 0 false).port 1).evtail - ((ringS 0 false).port 1).evhead).toNat ∧
      (((ringS 0 false).port 1).recs.any fun q => !q.held) = true ∧ (((ringS 0 true).port 1).recs.all fun q => q.held) = true) ∧
    ((queueS 1).boundary = true ∧ (queueS 1).distRuns 0 = true ∧ ((queueS 1).queue 5).v = true ∧ ((queueS 1).queue 5).state = 1) ∧
    (({ saves := [(0, 64), (1, 128)] } : Queue).saves ≠ [] ∧ ({ saves := [(0, 64)] } : Queue).state ≠ 1 ∧ ({ dying := true } : Queue).saves = []) ∧
    ((State.reset.onPort 1 fun k => { k with running := some (0x11, { cmd0 with queue := 5 }) }).port 1).running = some (0x11, { cmd0 with queue := 5 }) := by
  decide +kernel
theorem witness_RecordsAndSuspends_save : ∃ p l t, (queueS 1).storeNow 0 0 0x00FD000000003000 (wordBytes ((queueS 1).saveWords 5)) = .got p l t ∧
    (fun (p : Prog) (_ : State) => p.declined.isEmpty) p t = true := met_asked (by decide +kernel)

theorem witness_RotationAndCheckpoints : ((State.reset.lpmap 0).step = none ∧ (State.reset.nextScan 0).isSome = true) ∧
    (let s : State := State.reset.onDie 0 fun k => { k with lp := [(0, { step := some (0, 0) })] }
     (s.lpmap 0).step = some (0, 0) ∧ (s.core 0).drained = true ∧ (s.core 0).moving = false ∧ (s.scanOf 0 0).scanning = false ∧
       (s.lpmap 0).l.getD 0 0 = 0 ∧ ((s.onCore 0 Core.moved).core 0).moving = true) ∧
    ((State.reset.onDie 0 fun k => { k with lp := [(0, { step := some (0, 0) })], scan := [(0, { scanning := true })] }).scanOf 0 0).scanning = true ∧
    ({ State.reset with ck := { phase := 1 } } : State).quietNow = true ∧ State.reset.quietNow = false ∧
    (({ phase := 3 } : Check).phase = 3 ∧ ({ phase := 3 } : Check).capFailed = none) ∧ ({ restoring := true } : Check).restoring = true ∧
    ({ rebuilding := true } : Check).rebuilding = true ∧ ({ parityDue := true } : Check).parityDue = true := by decide +kernel
/-- In a reduced cluster, before and after its die applies the map; a passed scan there; a move under way; a failed capture. -/
def redS (taken scanning : Bool) : State := State.reset.onDie 0 fun k =>
  { k with lp := [(0, { reduced := true, step := some (0, 0), taken })], scan := [(0, { scanning })] }
theorem witness_RotationAndCheckpoints_reduced :
    ((State.reset.onDie 0 fun k => { k with lp := [(0, { reduced := true })] }).lpmap 0).step = none ∧
    ((State.reset.onDie 0 fun k => { k with lp := [(0, { reduced := true })] }).nextScan 0).isSome = true ∧
    (((redS false false).lpmap 0).step = some (0, 0) ∧ ((redS false false).lpmap 0).reduced = true ∧ ((redS false false).core (coreOf 0 0)).drained = true ∧
      ((redS false false).core (coreOf 0 0)).moving = false ∧ ((redS false false).scanOf 0 0).scanning = false ∧ ((redS false false).lpmap 0).taken = false ∧
      ((redS true false).lpmap 0).taken = true) ∧ ((redS true true).scanOf 0 0).scanning = true ∧
    (({ State.reset with cores := [(0, { moving := true })] } : State).core (coreOf 0 0)).moving = true ∧
    ({ phase := 3, capFailed := some 2 } : Check).capFailed = some 2 := by decide +kernel

def put0 : Packet := { daymark := 0, cls := 0, cmb := false, dst := 0, src := 2, sdie := 5, eseq := 1, body := .put (pkt 1) }
def keeperS (k : Fabric) : State := { State.reset with fabric := { k with keeperSelf := true } }
/-- Which links are bridges, the pod and the standby keeper come from the configuration image, which the model leaves
open. -/
theorem witness_FabricEvents : (State.reset.fabric.link 0 0).dead = false ∧
    (9 ≤ ({ resends := 9 } : Link).resends ∧ ({ resends := 8 } : Link).resends < 9) ∧ (put0.mbz = 0 ∧ 5 ≤ { put0 with cls := 5 }.cls) ∧
    ((({ out := [put0] } : Fabric).staged = none) ∧ put0.cls < 5 ∧ put0.daymark = ({} : Fabric).daymark ∧ { put0 with daymark := 1 }.daymark ≠ ({} : Fabric).daymark ∧
      put0.dst = ({} : Fabric).coords) ∧
    ((1 + 2 ^ 32 - 0 % 2 ^ 32) % 2 ^ 32 = 1 ∧ (1024 + 2 ^ 32 - 0 % 2 ^ 32) % 2 ^ 32 ≤ 1024 ∧ put0.eseq ∉ (State.reset.recvOf 2 5).got ∧ (0 + 2 ^ 32 - 0 % 2 ^ 32) % 2 ^ 32 = 0 ∧
      2 ^ 31 ≤ (0 + 2 ^ 32 - 2 ^ 31 % 2 ^ 32) % 2 ^ 32) ∧
    (State.reset.fabric.wait = [] ∧ seqGe 0 0 = true) ∧ (State.reset.coll.queue = [] ∧ ({ staged := some (1, [3]) } : Fabric).order ≠ some 1 ∧
      ({ staged := some (1, [3]), order := some 1 } : Fabric).keeperNext = []) ∧ (State.reset.fabric.order = none ∧ put0.also = []) ∧
    ((keeperS { keeperBusy := true }).fabric.keeperSelf = true ∧ (keeperS {}).fabric.keeperBusy = false ∧ State.reset.fabric.keeperSelf = false) ∧
    (let e : Combine := { key := 9, ncon := 1, vals := [(3, false)], first := { put0 with body := .piece 9 0 1 0 [(3, false)] } }
     [e].find? (fun e => e.key = 9) = some e ∧ e.first.dst = State.reset.fabric.coords) := by decide +kernel

theorem witness_PowerAndManagement : (State.reset.mgmt.bootPhase = 0 ∧ State.reset.mgmt.recov = false ∧ State.reset.mgmt.supply = true) ∧
    (((gS []).core 0).gateable = false ∧ ({ gate := .waking } : Core).gate = .waking ∧ ((gS []).core 0).gate ≠ .waking) ∧
    (({ ctxs := [(0, { run0 with status := .waiting .barw, pend := [{ landing 5 with due := 0 }] })] } : Core).gateable = true) ∧
    (({ ctxs := [(0, { run0 with status := .held })] } : Core).resident = true ∧ ({} : Core).resident = false ∧ ({ fogged := true } : Core).fogged = true) ∧
    (((State.reset.die 0).clock < 2) ∧ 2 ≤ ({ clock := 2 } : Die).clock ∧ 0 < ({ clock := 1 } : Die).clock ∧ (State.reset.die 0).clock = 0) ∧
    (109 < 110 ∧ 110 ≤ 110) ∧ ({ supply := false } : Mgmt).supply = false := by decide +kernel
/-- Whether the stored image passes is left to Config: one of the two clauses of POWER_ON applies at reset. -/
theorem witness_boot : (∃ ph e, State.reset.bootError [] = some (ph, e)) ∨ State.reset.bootError [] = none := by
  cases h : State.reset.bootError [] with
  | none => exact .inr rfl
  | some p => exact .inl ⟨p.1, p.2, rfl⟩

theorem witness_FaultsAndLinks : 0 ∉ State.reset.cxlDown ∧ 0 ∈ [0] ∧ (State.reset.die 0).role = false ∧ ({ role := true } : Die).role = true ∧
    (State.reset.die 0).lost = false ∧ ((ctxS { run0 with status := .halted }).ctx 0 0).status = .halted ∧ ((gS []).ctx 0 0).status ≠ .halted ∧
    1 < 2 ∧ ({ State.reset with lamp := 2 } : State).lamp = 1 + 1 := by decide +kernel
/-- A row with an uncorrectable error, one with eight corrected ones, one with seven, one that has been reported. -/
theorem witness_FaultsAndLinks_rows :
    (let s : State := State.reset.onDie 3 fun k => { k with badRows := [5], rowErrs := [(6, 8), (7, 7)], rowFaults := [(1, 6 * 2 ^ 16)] }
     1 = ctlOf (5 * 2 ^ 16) ∧ (s.die 3).rowBad (5 * 2 ^ 16) = true ∧ (s.die 3).rowTold (5 * 2 ^ 16) = false ∧
       (s.die 3).rowBad (6 * 2 ^ 16) = true ∧ (s.die 3).rowTold (6 * 2 ^ 16) = true ∧ (s.die 3).rowBad (7 * 2 ^ 16) = false) := by
  decide +kernel

/-! Control ports. -/

def up : State := { State.reset with mgmt := { bootPhase := 7 } }
theorem witness_PortWrites : State.reset.lamp = 0 ∧ ({ State.reset with lamp := 2 } : State).lamp = 1 + 1 ∧
    (∀ v ∈ [13, 12 + (2 ^ 31 - 1)], 1 ≤ (BitVec.ofNat 32 v - 12).toNat ∧ (BitVec.ofNat 32 v - 12).toNat ≤ 2 ^ 31 - 1) ∧
    (BitVec.ofNat 32 12 - 12).toNat = 0 ∧ 2 ^ 31 ≤ (BitVec.ofNat 32 11 - 12).toNat ∧ up.mgmt.bootPhase = 7 ∧ 63 < 64 ∧
    (((queueS 1).queue 5).v = true ∧ ((queueS 1).queue 5).owner = 0) ∧
    ((up.port 0).gone = false ∧ (up.port 0).apq = [] ∧ ((up.port 0).ap.get (0 / 2 ^ 30) {}).v = false) := by decide +kernel
/-- A port of a booted package with an aperture entry on this package, onto a mapped page, one that no table maps or one
of an address space that is not registered; and with one on another package. Which package this is, Config leaves open. -/
def apS (asid vbase : Nat) (pkg : Nat → Nat) : State :=
  let s := placed 64 0x0100410380008002
  { s with mgmt := { bootPhase := 7 } }.onPort 0 fun k => { k with ap := [(0, { v := true, pkg := pkg (Config.mooringIndex []), asid, vbase })] }
def apRead : ApReq := { ordered := true, off := 0, size := 8, data := none }
def apWrite : ApReq := { ordered := true, off := 0, size := 8, data := some [1, 2, 3, 4, 5, 6, 7, 8] }
def apJoined (s : State) (r : ApReq) : State := { s with fresh := 1 }.onPort 0 fun k => { k with apq := [r] }
def apAcc (kind : AccKind) (asid : Nat) : Acc := { agent := .host 0, kind, asid }
theorem witness_PortWrites_aperture : (apS 0 0 id).mgmt.bootPhase = 7 ∧ ((apS 0 0 id).port 0).gone = false ∧ ((apS 0 0 id).port 0).apq = [] ∧
    (apS 0 0 id).fresh = 0 ∧ (((apS 0 0 id).port 0).ap.get 0 {}).v = true ∧ State.reset.portUp = false ∧
    (∀ asid ∈ [0, 5], (let s := apJoined (apS asid 0 id) apRead
      s.asked (.host 0) (2 ^ 128) = false ∧ s.blocked (apAcc .load asid) (parts 0 8 .raw) 0 [] = none ∧
        s.readsNow (apAcc .load asid) [(0, 8)] = true ∧
        ((s.placesOf (apAcc .load asid) 0 [] 0 8 .raw).any fun c => c.2 = .declined) = decide (asid = 5))) ∧
    ((apS 0 0 id).mgmt.image = []) := by decide +kernel
theorem witness_PortWrites_pkg : (((apS 0 0 id).port 0).ap.get 0 {}).pkg = Config.mooringIndex (apS 0 0 id).mgmt.image ∧
    (((apS 0 0 (· + 1)).port 0).ap.get 0 {}).pkg ≠ Config.mooringIndex (apS 0 0 (· + 1)).mgmt.image :=
  ⟨rfl, Nat.succ_ne_self _⟩
theorem witness_PortWrites_write : ∃ p l u, (apJoined (apS 5 0 id) apWrite).ask (apAcc .store 5) (2 ^ 128) [] 0 0 [.raw 0 [1, 2, 3, 4, 5, 6, 7, 8] false] none =
    .got p l u ∧ (fun (p : Prog) (_ : State) => !p.declined.isEmpty) p u = true := met_asked (by decide +kernel)
theorem witness_PortWrites_parked : (match (apJoined (apS 0 1 id) apWrite).ask (apAcc .store 0) (2 ^ 128) [] 0 0 [.raw (2 ^ 16) [1, 2, 3, 4, 5, 6, 7, 8] false] none with
    | .went _ => true | _ => false) = true := by decide +kernel
theorem witness_PortWrites_remote (dst : Nat) : ((apJoined (apS 0 0 (· + 1)) apRead).sendPacket 0 0 dst false (.access 0 true 0 0 8 none 0)).isSome = true := by
  have h1 : ((apJoined (apS 0 0 (· + 1)) apRead).die 0).send = [] := by decide +kernel
  have h2 : ((apJoined (apS 0 0 (· + 1)) apRead).die 0).retryBytes = 0 := by decide +kernel
  have h3 : 16 + 64 * payloadUnits (.access 0 true 0 0 8 none 0) ≤ 2097152 := by decide +kernel
  simp [State.sendPacket, h1, h2, packetBytes, h3]

def upQ : State := { queueS 1 with mgmt := { bootPhase := 7 }, lamp := 1 }
theorem witness_QueueCommands : (upQ.port 0).busy = false ∧ upQ.mgmt.bootPhase = 7 ∧
    ((upQ.queue 5).v = true ∧ (upQ.queue 6).v = false ∧ (2 < 3 ∨ 16 < 2) ∧ (17 < 3 ∨ 16 < 17) ∧ upQ.registered 0 = true ∧ upQ.registered 63 = false) ∧
    (7 < 8 ∧ 16 < 32 ∧ 63 < 64) ∧ (upQ.lamp = 0 + 1 ∧ upQ.lamp ≠ 1 + 1) ∧ ((upQ.queue 5).owner = 0 ∧ (upQ.queue 5).state = 1 ∧ ((upQ.onQueue 5 fun q => { q with state := 0 }).queue 5).state < 2) ∧
    ((upQ.onQueue 5 fun q => { q with state := 3 }).queue 5).state = 3 ∧
    (1023 < 2 ^ 10 ∧ 3 < 4 ∧ ((up.ctx 0 0).task = none ∧ ((gS []).ctx 0 0).task = some task0 ∧ ((gS []).ctx 0 0).status ≠ .halted)) := by
  decide +kernel
/-- A suspended queue, whose record is read from the ring memory. -/
def susQ : State := upQ.onQueue 5 fun q => { q with state := 2 }
theorem witness_QueueCommands_resume : ((susQ.queue 5).v = true ∧ (susQ.queue 5).state = 2) ∧
    (0x00FD000000002000 < 2 ^ 56 ∧ 0x00FD000000002000 % 64 = 0) ∧
    ∃ p l t, State.askRead (susQ.onPort 0 fun k => { k with busy := true, running := some (0x13, { cmd0 with queue := 5, op0 := 0x00FD000000002000 }) })
      (distAcc 0 0 .load) (2 * 0) [] [(0x00FD000000002000, 64)] = .got p l t ∧ (fun (p : Prog) (_ : State) => p.data.flatten.length == 64) p t = true :=
  ⟨by decide +kernel, by decide +kernel, met_asked (by decide +kernel)⟩

theorem witness_CheckpointCommands : ((up.port 0).busy = false ∧ up.mgmt.bootPhase = 7 ∧ cmd0.queue = 0) ∧
    (up.ck.phase = 0 ∧ up.ck.disabled = false ∧ ({ phase := 2 } : Check).phase ≠ 0 ∧ ({ disabled := true } : Check).disabled = true) ∧
    (({ phase := 2, pending := 1 } : Check).pending ≠ 0 ∧ ({ phase := 2 } : Check).pending = 0) ∧ (({ ready := true } : Check).ready = true ∧ up.ck.ready = false) ∧
    (({ committed := 1 } : Check).committed ≠ 0 ∧ up.ck.committed = 0) ∧ (({ standby := true } : Check).standby = true ∧ up.ck.standby = false) ∧
    (upQ.lamp = cmd0.port + 1 ∧ up.lamp ≠ cmd0.port + 1) ∧ (64 % 64 = 0 ∧ 1 ≤ 65536 ∧ 65536 < 65537) := by decide +kernel

theorem witness_SpaceCommands : ((up.port 0).busy = false ∧ up.mgmt.bootPhase = 7 ∧ cmd0.op3 = 0) ∧
    (upQ.registered 0 = true ∧ up.registered 63 = false ∧ up.paOk 0 2048 = true ∧ 2 ^ 48 ≤ 2 ^ 48) ∧
    (upQ.lamp = cmd0.port + 1 ∧ (∀ q ∈ up.queues, ¬ (q.2.v = true ∧ q.2.asid = 0)) ∧ (∀ w ∈ up.windows, ¬ (w.2.v = true ∧ w.2.asid = 0)) ∧ ∀ p ∈ up.parked, p.asid ≠ 0) ∧
    (up.lamp ≠ cmd0.port + 1 ∧ ∃ q ∈ upQ.queues, q.2.v = true ∧ q.2.asid = 0) ∧
    (up.physRoom 0 0 2048 = true ∧ (up.onDie 0 fun k => { k with sent := (List.range 32).map fun h => (h, 2 ^ 20) }).physRoom 0 0 2048 = false) ∧
    (upQ.owns 0 0 = true ∧ upQ.owns 1 0 = false) ∧ (homeDie 0 = 0 ∧ mtuOf 0 = 0 ∧ homeDie 0x1234560000 ≠ 0) ∧
    (2 ^ 20 < 2 ^ 20 + 1 ∧ up.paOk 0 (2 ^ 20) = true ∧ up.paOk (2 ^ 41) 1 = false) := by decide +kernel

theorem witness_WindowGroupAndObjectCommands : ((up.port 0).busy = false ∧ cmd0.op1 = 0) ∧ (((winS win).window 3).v = true ∧ (up.window 3).v = false ∧ upQ.registered 0 = true) ∧
    (1 ≤ 2 ^ 31 - 1 ∧ 0 + 2 ^ 31 * 2 ^ 16 ≤ 2 ^ 47 ∧ 2 ^ 47 < 2 ^ 16 + 2 ^ 31 * 2 ^ 16) ∧ (((winS win).window 3).closing = [] ∧ ∀ f ∈ (winS win).puts, f.p.win ≠ 3) ∧
    (up.loading 0 = false ∧ (up.onPort 1 fun p => { p with running := some (0x24, cmd0) }).loading 0 = true) ∧
    (∀ o ∈ up.objects, ¬ (o.image = 0 ∧ o.asid = 0)) ∧ (∃ o ∈ [({ image := 0x10000, asid := 0, uses := [] } : Loaded)], o.image = 0x10000 ∧ o.asid = 0) := by
  decide +kernel
/-- A group without and with a collective under way. -/
def idleGroup : State := { up with groups := [(9, { asid := 0, size := 2, rank := 1, tree := false, cmb := false, list := [5, 0], started := 1 })] }
def run9 : CollRun := { blk := { src := 0, dst := 64, count := 1, kind := 0, op := 0, typ := 0, root := 0, group := 9 }, k := 1, run := 0 }
def busyGroup : State := { idleGroup with coll := { idleGroup.coll with queue := [item (.collRun run9)] } }
theorem witness_deregister : (idleGroup.groups.find? (fun p => p.1 = 9)).isSome = true ∧ idleGroup.groupIdle 9 = true ∧ busyGroup.groupIdle 9 = false ∧
    9 < 2 ^ 12 := by decide +kernel
def groupBlock : List Byte := leBytes 8 (9 + 2 * 2 ^ 32) ++ leBytes 8 1 ++ leBytes 8 (0x00FD000000000000 : Nat) ++ List.replicate 8 0
/-- A group of two whose second member, this package, has coordinates 0 and rank 1. -/
def groupS : State := ({ up with spaces := [(0, { root := 0x100000, owner := 0 })] }.poke (hostKey 0) groupBlock).poke ringBase (leBytes 4 5)
theorem witness_group : (groupOf (groupS.bytes (hostKey 0) 32)).isSome = true ∧
    (let a := apAcc .load 0
     let s := groupS.onPort 0 fun k => { k with busy := true, running := some (0x20, cmd0) }
     let bs := s.readParts a [] (cuts 0x00FD000000000000 8)
     gotPoison bs = false ∧ ((List.range 2).map fun i => gotNat ((bs.drop (4 * i)).take 4)) = [5, groupS.fabric.coords] ∧
       s.asked (.host 0) 1 = false ∧ s.blocked a (parts 0x00FD000000000000 8 .raw) 0 [] = none ∧
       s.readsNow a [(0x00FD000000000000, 8)] = true) := by decide +kernel
/-- An object of one data segment of eight bytes, in the ring memory, or a resident image with its certificate; with an
undefined symbol or without. -/
def objImage (kind nsym : Nat) : List Byte := leBytes 8 (0x434B594C + 2 ^ 32 + kind * 2 ^ 48 + 2 ^ 56) ++ leBytes 4 1 ++ leBytes 4 nsym ++
  leBytes 4 0 ++ leBytes 4 8 ++ leBytes 8 64 ++ leBytes 8 104 ++ leBytes 8 0 ++ leBytes 8 128 ++ leBytes 8 (136 * kind) ++
  leBytes 8 (0x00FD000000010000 : Nat) ++ leBytes 8 96 ++ leBytes 8 (8 + 8 * 2 ^ 32) ++ leBytes 8 1 ++ leBytes 8 77 ++
  leBytes 8 (3 * 2 ^ 32 + 0xFFFF * 2 ^ 48) ++ leBytes 16 0 ++ leBytes 8 97 ++ List.replicate 256 0
def objCmd : Cmd := { cmd0 with op0 := 0x00FD000000000000 }
def objS (kind nsym code : Nat) : State :=
  ({ up with spaces := [(0, { root := 0x100000, owner := 0 })], lamp := 1 }.poke ringBase (objImage kind nsym)).onPort 0 fun k =>
    { k with busy := true, running := some (code, objCmd) }
/-- What holds of the object once its header, its tables and its bytes are read. -/
def objIs (kind nsym code : Nat) (P : Object → Bool) : Bool :=
  let s := objS kind nsym code
  let rd (n : Nat) (f : List (Byte × Bool) → Bool) : Bool :=
    match s.readNow (loadAcc objCmd .load) (objAddr objCmd) n with | .ready bs => !gotPoison bs && f bs | _ => false
  rd 64 fun h => headerOk (h.map (·.1)) && tableLen (h.map (·.1)) < 2 ^ 47 && rd (tableLen (h.map (·.1))) fun tab =>
    imageLen (tab.map (·.1)) < 2 ^ 47 && rd (imageLen (tab.map (·.1))) fun all =>
      imgNat (all.map (·.1)) 6 1 == kind && match objectOf (all.map (·.1)) (lostIn all) with
        | some o => o.latset == 1 && P o
        | none => false
theorem witness_object : up.loading objCmd.port = false ∧ (up.port objCmd.port).linking = none ∧
    objIs 0 0 0x24 (fun o => (objS 0 0 0x24).textPages 0 o.segs && !o.segs.any Seg.bad &&
      (match o.link (objAddr objCmd) [] with | .ok segs _ _ => segs.length == 1 | _ => false)) = true ∧
    objIs 0 1 0x24 (fun o => match o.link (objAddr objCmd) [] with | .bad _ => true | _ => false) = true := by decide +kernel
/-- The object's segment can be written. -/
theorem witness_object_write : (match (objS 0 0 0x24).ask (loadAcc objCmd .store) 1 [] 0 0 [.read 0x00FD000000010000 8] none with
    | .got p _ t => p.declined.isEmpty && (((t.forgetLoads 0).submit ((loadAcc objCmd .store).req t.nextId 3 [] 0 0
        [.raw 0x00FD000000010000 [77, 0, 0, 0, 0, 0, 0, 0] false] none)).result? (.dist 0) 3).isSome
    | _ => false) = true := by decide +kernel
/-- Whether a signature is right is computed; a certificate of zeros is not. -/
theorem witness_resident : (objS 1 0 0x26).lamp = objCmd.port + 1 ∧ objIs 1 0 0x26 (fun o => certKind o.cert == 0 && !o.segs.any Seg.bad &&
      !(objS 1 0 0x26).certOk o && (match o.link (objAddr objCmd) [] with | .ok _ _ _ => true | _ => false)) = true ∧
    objIs 1 1 0x26 (fun o => match o.link (objAddr objCmd) [] with | .bad _ => true | _ => false) = true := by decide +kernel

end Sys2Proof.Tests
end

namespace Sys2Proof.Proofs.ScalarRoutines

open Machine Laws

/-! ## Shifts and quotients -/

/-- Two multiples of a unit that lie within half a unit and a remainder of each other are the same or neighbours. -/
theorem sub_eq_of_near {P z q f : Int} (hP : 0 < P) (h0 : 0 ≤ f) (h1 : f < 2 * P) (lo : -P ≤ f + (z - q) * (2 * P))
    (hi : f + (z - q) * (2 * P) ≤ P) : z - q = 0 ∨ z - q = -1 := by
  have above : z - q < 1 := Int.not_le.1 fun h => by
    have : 1 * (2 * P) ≤ (z - q) * (2 * P) := Int.mul_le_mul_of_nonneg_right h (by omega)
    omega
  have below : -2 < z - q := Int.not_le.1 fun h => by
    have : (z - q) * (2 * P) ≤ -2 * (2 * P) := Int.mul_le_mul_of_nonneg_right h (by omega)
    omega
  omega

/-- Rounding to nearest-even is the only integer within half a unit that takes the even neighbour at a tie (R101). -/
theorem shiftdown_nearest {a q : Int} {n : Nat} (r k : Nat) (hi : 2 * (a - q * 2 ^ n) ≤ 2 ^ n)
    (lo : -2 ^ n ≤ 2 * (a - q * 2 ^ n))
    (tie : 2 * (a - q * 2 ^ n) = 2 ^ n ∨ 2 * (a - q * 2 ^ n) = -2 ^ n → q % 2 = 0) : shiftdown a n 1 r k = q := by
  cases n with
  | zero => rw [shiftdown, if_pos rfl]; omega
  | succ m =>
    have hP : (0 : Int) < 2 ^ m := Int.pow_pos (by decide)
    have hpow : (2 : Int) ^ (m + 1) = 2 * 2 ^ m := (Int.pow_succ 2 m).trans (Int.mul_comm _ _)
    simp only [shiftdown, Nat.succ_ne_zero, if_false, Nat.add_sub_cancel, hpow] at hi lo tie ⊢
    generalize (2 : Int) ^ m = P at hP hi lo tie ⊢
    have hmod := Int.emod_add_mul_ediv a (2 * P)
    have h0 := Int.emod_nonneg a (b := 2 * P) (by omega)
    have h1 := Int.emod_lt_of_pos a (b := 2 * P) (by omega)
    generalize a / (2 * P) = z at hmod ⊢
    generalize a % (2 * P) = f at hmod h0 h1
    rw [Int.mul_comm] at hmod
    have hf : a - z * (2 * P) = f := by omega
    have hq : a - q * (2 * P) = f + (z - q) * (2 * P) := by rw [Int.sub_mul]; omega
    rw [hq] at hi lo tie
    rw [hf]
    rcases sub_eq_of_near (z := z) (q := q) hP h0 h1 (by omega) (by omega) with same | next
    · rw [same] at hi lo tie; split <;> omega
    · rw [next] at hi lo tie; split <;> omega

/-- `q` is the floor of `a / b`, as its products with a divisor of either sign say it (R237). -/
def IsFloor (a b q : Int) : Prop :=
  (0 < b → q * b ≤ a ∧ a < (q + 1) * b) ∧ (b < 0 → a ≤ q * b ∧ (q + 1) * b < a)

/-- Changing both signs leaves the quotient and makes the divisor positive. -/
theorem isFloor_pos {a b q : Int} (hb : b ≠ 0) (h : IsFloor a b q) :
    ∃ x y, (x = a ∧ y = b ∨ x = -a ∧ y = -b) ∧ 0 < y ∧ q * y ≤ x ∧ x < (q + 1) * y := by
  obtain ⟨pos, neg⟩ := h
  rcases Int.lt_or_gt_of_ne hb with hb | hb
  · obtain ⟨h1, h2⟩ := neg hb
    exact ⟨-a, -b, .inr ⟨rfl, rfl⟩, by omega, by rw [Int.mul_neg]; omega, by rw [Int.mul_neg]; omega⟩
  · obtain ⟨h1, h2⟩ := pos hb
    exact ⟨a, b, .inl ⟨rfl, rfl⟩, hb, h1, h2⟩

theorem fdiv_eq_of_isFloor {a b q : Int} (hb : b ≠ 0) (h : IsFloor a b q) : a.fdiv b = q := by
  obtain ⟨x, y, signs, hy, h1, h2⟩ := isFloor_pos hb h
  have hxy : x.fdiv y = a.fdiv b := by
    rcases signs with ⟨rfl, rfl⟩ | ⟨rfl, rfl⟩
    · rfl
    · exact Int.neg_fdiv_neg a b
  rw [← hxy, Int.fdiv_eq_ediv_of_nonneg _ (Int.le_of_lt hy)]
  exact (Int.ediv_eq_iff_of_pos hy).2 ⟨h1, by rw [Int.add_mul, Int.one_mul] at h2; exact h2⟩

/-- A quotient of words needs 64 bits but for -2^63 / -1, which is 2^63 (R237). -/
theorem isFloor_bounds {a b : Word} {q : Int} (hb : b.toInt ≠ 0) (h : IsFloor a.toInt b.toInt q) :
    -2 ^ 63 ≤ q ∧ q ≤ 2 ^ 63 := by
  obtain ⟨x, y, signs, hy, h1, h2⟩ := isFloor_pos hb h
  have lo : -2 ^ 63 ≤ a.toInt := BitVec.le_toInt a
  have hi : a.toInt < 2 ^ 63 := BitVec.toInt_lt
  constructor
  · refine Int.not_lt.1 fun hq => ?_
    have : (q + 1) * y ≤ (q + 1) * 1 := Int.mul_le_mul_of_nonpos_left (by omega) (by omega)
    omega
  · refine Int.not_lt.1 fun hq => ?_
    have : q * 1 ≤ q * y := Int.mul_le_mul_of_nonneg_left (by omega) (by omega)
    omega

theorem divfRes_zero {a b : Word} (hb : b.toInt = 0) :
    divfRes a b = (wd (if a.toInt > 0 then 2 ^ 63 - 1 else if a.toInt < 0 then -2 ^ 63 else 0), 1) := by
  simp only [divfRes, hb, if_true]

theorem divfRes_floor {a b : Word} {q : Int} (hb : b.toInt ≠ 0) (h : IsFloor a.toInt b.toInt q) :
    divfRes a b = (wd (min q (2 ^ 63 - 1)), if q = 2 ^ 63 then 1 else 0) := by
  obtain ⟨lo, hi⟩ := isFloor_bounds hb h
  have hs : sat q 64 = min q (2 ^ 63 - 1) := by simp only [sat]; omega
  have hc : min q (2 ^ 63 - 1) ≠ q ↔ q = 2 ^ 63 := by omega
  simp only [divfRes, hb, if_false, fdiv_eq_of_isFloor hb h, hs, hc]

theorem remfRes_zero {a b : Word} (hb : b.toInt = 0) : remfRes a b = (wd 0, 1) := by
  rw [remfRes, if_pos hb]; rfl

theorem remfRes_floor {a b : Word} {q : Int} (hb : b.toInt ≠ 0) (h : IsFloor a.toInt b.toInt q) :
    remfRes a b = (wd (a.toInt - b.toInt * q), 0) := by
  simp only [remfRes, hb, if_false, Int.fmod_def, fdiv_eq_of_isFloor hb h]

/-! ## Normalisation and the searched root -/

/-- The shift that brings the top bit of a word to bit 63 is its count of leading zeros (R238). -/
theorem clz_eq_of_normalised {u k : Nat} (lo : 2 ^ 63 ≤ u * 2 ^ k) (hi : u * 2 ^ k < 2 ^ 64) : clz u 64 = k := by
  have hu : u ≠ 0 := by rintro rfl; omega
  have hk : k < 64 := (Nat.pow_lt_pow_iff_right (by decide)).1
    (Nat.lt_of_le_of_lt (Nat.le_mul_of_pos_left (2 ^ k) (by omega)) hi)
  have hu64 : u < 2 ^ 64 := Nat.lt_of_le_of_lt (Nat.le_mul_of_pos_right u (Nat.two_pow_pos k)) hi
  have e1 : 2 ^ (63 - k) * 2 ^ k = 2 ^ 63 := by rw [← Nat.pow_add, Nat.sub_add_cancel (by omega)]
  have e2 : 2 ^ (64 - k) * 2 ^ k = 2 ^ 64 := by rw [← Nat.pow_add, Nat.sub_add_cancel (by omega)]
  have hl : u.log2 = 63 - k := by
    rw [Nat.log2_eq_iff hu, show 63 - k + 1 = 64 - k by omega]
    exact ⟨Nat.le_of_mul_le_mul_right (e1 ▸ lo) (Nat.two_pow_pos k), Nat.lt_of_mul_lt_mul_right (e2 ▸ hi)⟩
  rw [clz, Nat.mod_eq_of_lt hu64, if_neg hu, hl]
  omega

/-- The even shift that brings the top bit of a word to bit 62 or 63 (R239). -/
theorem clz_even_of_normalised {u k : Nat} (even : k % 2 = 0) (lo : 2 ^ 62 ≤ u * 2 ^ k) (hi : u * 2 ^ k < 2 ^ 64) :
    clz u 64 - clz u 64 % 2 = k := by
  by_cases h : 2 ^ 63 ≤ u * 2 ^ k
  · rw [clz_eq_of_normalised h hi]; omega
  · have e : u * 2 ^ (k + 1) = u * 2 ^ k * 2 := by rw [Nat.pow_succ, Nat.mul_assoc]
    rw [clz_eq_of_normalised (k := k + 1) (by omega) (by omega)]; omega

/-- The search finds the last number that a downward-closed test accepts. -/
theorem greatest_eq {ok : Nat → Bool} {m : Nat} (below : ∀ i, ok i = true ↔ i ≤ m) {n base : Nat} (hb : base ≤ m)
    (hm : m < base + 2 ^ n) : greatest ok n base = m := by
  induction n generalizing base with
  | zero => rw [Nat.pow_zero] at hm; rw [greatest]; omega
  | succ n ih =>
    rw [Nat.pow_succ] at hm
    rw [greatest]
    by_cases h : ok (base + 2 ^ n) = true
    · rw [if_pos h]; exact ih ((below _).1 h) (by omega)
    · rw [if_neg h]; exact ih hb (by rw [below] at h; omega)

/-- The largest m with m² v ≤ 2^188 is found by the 64 steps of RSQN when v is normalised (R239). -/
theorem greatest_root {v m : Nat} (hv : 2 ^ 62 ≤ v) (le : m ^ 2 * v ≤ 2 ^ 188) (gt : 2 ^ 188 < (m + 1) ^ 2 * v) :
    greatest (fun i => i * i * v ≤ 2 ^ 188) 64 0 = m := by
  have mono : ∀ i j, i ≤ j → i ^ 2 * v ≤ j ^ 2 * v := fun i j h => Nat.mul_le_mul_right v (Nat.pow_le_pow_left h 2)
  have below : ∀ i, decide (i * i * v ≤ 2 ^ 188) = true ↔ i ≤ m := fun i => by
    rw [decide_eq_true_eq, ← Nat.pow_two]
    constructor
    · intro h
      refine Nat.not_lt.1 fun hc => ?_
      exact absurd (Nat.le_trans (mono (m + 1) i hc) h) (Nat.not_le.2 gt)
    · intro h
      exact Nat.le_trans (mono i m h) le
  have hm : m < 2 ^ 64 := Nat.not_le.1 fun hc => by
    have big : (2 ^ 64) ^ 2 * 2 ^ 62 ≤ m ^ 2 * v := Nat.mul_le_mul (Nat.pow_le_pow_left hc 2) hv
    exact absurd (Nat.le_trans big le) (by decide)
  exact greatest_eq below (Nat.zero_le m) (by omega)

theorem rcpnRes_zero {a : Word} (ha : a.toNat = 0) : rcpnRes a = (wd (2 ^ 63 - 1), wd 64, 1) := by
  rw [rcpnRes, if_pos ha]; rfl

theorem rcpnRes_normalised {a : Word} {k : Nat} (lo : 2 ^ 63 ≤ a.toNat * 2 ^ k) (hi : a.toNat * 2 ^ k < 2 ^ 64) :
    rcpnRes a = (wd (min (2 ^ 126 / (a.toNat * 2 ^ k)) (2 ^ 63 - 1) : Nat), wd k, 0) := by
  have ha : a.toNat ≠ 0 := by intro h; rw [h] at lo; omega
  simp only [rcpnRes, ha, if_false, clz_eq_of_normalised lo hi, wd, BitVec.ofInt_natCast]

theorem rsqnRes_zero {a : Word} (ha : a.toNat = 0) : rsqnRes a = (wd (2 ^ 63 - 1), wd 32, 1) := by
  rw [rsqnRes, if_pos ha]; rfl

theorem rsqnRes_normalised {a : Word} {k m : Nat} (even : k % 2 = 0) (lo : 2 ^ 62 ≤ a.toNat * 2 ^ k)
    (hi : a.toNat * 2 ^ k < 2 ^ 64) (le : m ^ 2 * (a.toNat * 2 ^ k) ≤ 2 ^ 188)
    (gt : 2 ^ 188 < (m + 1) ^ 2 * (a.toNat * 2 ^ k)) :
    rsqnRes a = (wd (min m (2 ^ 63 - 1) : Nat), wd (k / 2 : Nat), 0) := by
  have ha : a.toNat ≠ 0 := by intro h; rw [h] at lo; omega
  simp only [rsqnRes, ha, if_false, clz_even_of_normalised even lo hi, greatest_root lo le gt, wd, BitVec.ofInt_natCast]

/-! ## Results -/

theorem elsewhere_cycle {s u : State} (h : s.elsewhere u) : u.fcore.cycle = s.fcore.cycle := by
  obtain ⟨-, -, same, -⟩ := h
  exact (congrArg Core.cycle same :)

/-- The same result issued after a change of the context in focus is due at the same cycle. -/
theorem due_elsewhere {s u : State} (h : s.elsewhere u) (L : Nat) (d : Dest) (val : Vec) (poison : Bool) (n : Nat) :
    u.due L d val poison n = s.due L d val poison n := by
  rw [State.due, elsewhere_cycle h, State.due]

/-- A register that reads as before stays empty. -/
theorem empties_of_keeps {k old : Ctx} {ds : List Dest} {d : Dest} (h : k.keeps old ds) (he : old.empties d) (hd : d ∉ ds) :
    k.empties d := by
  obtain ⟨hg, hv, hp, -⟩ := h
  cases d with
  | g n => simpa only [Ctx.empties, hg n hd] using he
  | v n => simpa only [Ctx.empties, hv n hd] using he
  | p n => simpa only [Ctx.empties, hp n hd] using he
  | k n => trivial
  | acc t => trivial

theorem counted_zero_trans {a b c : Ctx} (h : a.counted b 0) (h' : b.counted c 0) : a.counted c 0 := by
  obtain ⟨h1, h2⟩ := h
  obtain ⟨g1, g2⟩ := h'
  exact ⟨by rw [h1, g1]; exact Bool.or_false _, by omega⟩

theorem regsOnly_trans {s u v : State} (h : s.regsOnly u) (h' : u.regsOnly v) : s.regsOnly v :=
  ⟨elsewhere_trans h.1 h'.1, sameCtx_trans h'.2 h.2⟩

/-- Results that are queued after others are queued with them. -/
theorem queued_trans {s u v : State} {ps qs : List Pend} (h : s.queued u ps) (h' : u.queued v qs) :
    s.queued v (ps ++ qs) := by
  obtain ⟨empty, pend, count, keep, only⟩ := h
  obtain ⟨empty', pend', count', keep', only'⟩ := h'
  refine ⟨fun p hp => ?_, by rw [pend', pend, List.append_assoc], counted_zero_trans count' count, ?_,
    regsOnly_trans only only'⟩
  · by_cases hq : p.dest ∈ qs.map (·.dest)
    · obtain ⟨q, hq, e⟩ := List.mem_map.1 hq
      exact e ▸ empty' q hq
    · have hp : p ∈ ps := (List.mem_append.1 hp).resolve_right fun hm => hq (List.mem_map_of_mem hm)
      exact empties_of_keeps keep' (empty p hp) hq
  · rw [List.map_append]; exact keeps_trans keep' keep

theorem queued_elsewhere {s u : State} {ps : List Pend} (h : s.queued u ps) : s.elsewhere u := by
  obtain ⟨-, -, -, -, elsewhere, -⟩ := h
  exact elsewhere

/-! ## The shapes of a scalar operation -/

/-- A result at latency L is the one result that `yields` asks for. -/
theorem result_yielded (s : State) {L : Nat} (hL : 1 ≤ L) (d : Dest) (val : Vec) (poison : Bool) (n : Nat) :
    if L = 1 then s.wrote (s.result L d val poison n) d val poison n
    else s.queued (s.result L d val poison n) [s.due L d val poison n] := by
  split
  · next h => subst h; exact result_wrote s d val poison n
  · exact result_queued s L (by omega) d val poison n

/-- A granted scalar operation yields the value and the count that its function gives (R227). -/
theorem scalar_yields {i : Instr} {s : State} {slot pred L d n : Nat} {srcs : List Src} {f : State → Res} {val : Int}
    (hi : exec i s = .next (s.scalar slot pred L d srcs f)) (hL : 1 ≤ L) (h : s.grants pred srcs [s.dg d] [])
    (hf : f s = (wd val, n)) : scalarYields i s L d srcs val n := by
  refine ⟨_, hi, ?_⟩
  rw [State.scalar, issue_granted _ _ _ h]
  simp only [hf]
  exact result_yielded s hL _ _ _ _

/-- A granted pair operation queues both results, and its events count with the first (R240). -/
theorem pairOp_queued {i : Instr} {s : State} {t : Tri} {L n : Nat} {f : Word → Word × Word × Nat} {x y : Int}
    (hi : exec i s = .next (s.pairOp t L f)) (hL : 1 < L)
    (h : s.grants t.pred [srcA t] [s.dg t.d, s.dg (t.d + 1)] []) (hf : f (s.valA t) = (wd x, wd y, n)) :
    let p := s.anyPoison [srcA t]
    answers i s fun u => s.queued u
      [s.due L (s.dg t.d) (wide (wd x)) p (if p then 0 else n), s.due L (s.dg (t.d + 1)) (wide (wd y)) p 0] := by
  refine ⟨_, hi, ?_⟩
  rw [State.pairOp, issue_granted _ _ _ h]
  simp only [hf]
  generalize s.anyPoison [srcA t] = p
  have first := result_queued s L hL (s.dg t.d) (wide (wd x)) p (if p then 0 else n)
  have second := result_queued (s.result L (s.dg t.d) (wide (wd x)) p (if p then 0 else n)) L hL (s.dg (t.d + 1))
    (wide (wd y)) p 0
  rw [due_elsewhere (queued_elsewhere first)] at second
  exact queued_trans first second

/-! ## What each operation's arm runs -/

theorem exec_shrn (t : Tri) (s : State) : exec (.shrn t) s = execShrn t s := rfl
theorem exec_shrs (t : Tri) (s : State) : exec (.shrs t) s = execShrs t s := rfl
theorem exec_sats (t : Tri) (s : State) : exec (.sats t) s = execSats t s := rfl
theorem exec_divf (t : Tri) (s : State) : exec (.divf t) s = execDivf t s := rfl
theorem exec_remf (t : Tri) (s : State) : exec (.remf t) s = execRemf t s := rfl
theorem exec_rcpn (t : Tri) (s : State) : exec (.rcpn t) s = execRcpn t s := rfl
theorem exec_rsqn (t : Tri) (s : State) : exec (.rsqn t) s = execRsqn t s := rfl
theorem exec_rnd (t : Tri) (s : State) : exec (.rnd t) s = execRnd t s := rfl

/-! ## The operations -/

/-- R234: SHRN is the nearest-even shift by its amount. -/
theorem shrn_yields {t : Tri} {s : State} (h : s.grants t.pred (srcsAB t) [s.dg t.d] []) :
    scalarYields (.shrn t) s 1 t.d (srcsAB t) (shiftdown (s.valA t).toInt (s.shrnAmount t) 1 0 0) 0 :=
  scalar_yields (exec_shrn t s) (Nat.le_refl 1) h rfl

/-- R235: SHRS is the stochastic shift by the amount, with the usable bits, that its extension word gives. -/
theorem shrs_yields {t : Tri} {s : State} {c : Nat} (hc : t.ext = some c)
    (h : s.grants t.pred [srcA t, srcB t] [s.dg t.d] []) :
    scalarYields (.shrs t) s 1 t.d [srcA t, srcB t]
      (shiftdown (s.g t.a).val.toInt (c % 64) 2 (s.g t.b).val.toNat (c / 256 % 128)) 0 :=
  scalar_yields (exec_shrs t s) (Nat.le_refl 1) h
    (by simp only [hc, Option.getD_some, fld, State.valA, Nat.reducePow, Nat.div_one])

theorem satsRes_eq (a : Word) (w : Nat) (u : Bool) :
    satsRes a w u = (wd (satTo w u a.toInt), if satTo w u a.toInt = a.toInt then 0 else 1) := by
  simp only [satsRes, ne_eq, ite_not]

/-- R236: SATS clamps to the width and the signedness of its control value, and counts a change. -/
theorem sats_yields {t : Tri} {s : State} (h : s.grants t.pred (srcsAB t) [s.dg t.d] []) :
    let y := satTo (min (max (s.ctlB t % 128) 1) 64) (bit (s.ctlB t) 7) (s.valA t).toInt
    scalarYields (.sats t) s 1 t.d (srcsAB t) y (if y = (s.valA t).toInt then 0 else 1) :=
  scalar_yields (exec_sats t s) (Nat.le_refl 1) h (by simp only [satsRes_eq, fld, Nat.reducePow, Nat.div_one])

/-- R237: DIVF and REMF yield what `divfRes` and `remfRes` give. -/
theorem divf_yields {t : Tri} {s : State} {q : Int} {n : Nat} (h : s.grants t.pred (srcsAB t) [s.dg t.d] [])
    (hr : divfRes (s.valA t) (s.valB t) = (wd q, n)) : scalarYields (.divf t) s 36 t.d (srcsAB t) q n :=
  scalar_yields (exec_divf t s) (by decide) h hr

theorem remf_yields {t : Tri} {s : State} {r : Int} {n : Nat} (h : s.grants t.pred (srcsAB t) [s.dg t.d] [])
    (hr : remfRes (s.valA t) (s.valB t) = (wd r, n)) : scalarYields (.remf t) s 36 t.d (srcsAB t) r n :=
  scalar_yields (exec_remf t s) (by decide) h hr

/-- R241: RND queues the word drawn at RNGCTR and then steps RNGCTR (the model's choice for slot 1, log entry 67). -/
theorem rnd_queued {t : Tri} {s : State} (h : s.grants t.pred [] [s.dg t.d] []) :
    answers (.rnd t) s fun t' =>
      ∃ u, s.queued u [s.due 2 (s.dg t.d) (wide (mix s.old.rngkey s.cur.rngctr s.old.rngstep)) false 0] ∧
        t' = u.onCur fun k => { k with rngctr := k.rngctr + 1 } := by
  refine ⟨_, exec_rnd t s, _, result_queued s 2 (by decide) _ _ false 0, ?_⟩
  rw [issue_granted _ _ _ h]

/-- Settles O12: each operation's shape gives its latency, poison and count, and the arithmetic above its value. -/
theorem scalarRoutines : Obligations.ScalarRoutines := by
  unfold Obligations.ScalarRoutines
  refine ⟨fun t s q h => ?shrn, fun t s c hc h => ?shrs, fun t s h => ⟨?sats, fun hb => ?divZero, fun q hb pos neg => ?div⟩,
    fun t s h => ⟨fun hu => ?pairZero, fun k lo hi => ?rcpn, fun k m even lo hi le gt => ?rsqn⟩, fun t s h => rnd_queued h⟩
  case shrn =>
    intro a n r hi lo tie
    rw [← shiftdown_nearest 0 0 hi lo tie]
    exact shrn_yields h
  case shrs => simpa only [shiftdown] using shrs_yields hc h
  case sats => simpa only [satTo, sat, satn, bit, decide_eq_true_eq, Nat.reducePow] using sats_yields h
  case divZero => exact ⟨divf_yields h (divfRes_zero hb), remf_yields h (remfRes_zero hb)⟩
  case div => exact ⟨divf_yields h (divfRes_floor hb ⟨pos, neg⟩), remf_yields h (remfRes_floor hb ⟨pos, neg⟩)⟩
  case pairZero =>
    exact ⟨pairOp_queued (exec_rcpn t s) (by decide) h (rcpnRes_zero hu),
      pairOp_queued (exec_rsqn t s) (by decide) h (rsqnRes_zero hu)⟩
  case rcpn => exact pairOp_queued (exec_rcpn t s) (by decide) h (rcpnRes_normalised lo hi)
  case rsqn => exact pairOp_queued (exec_rsqn t s) (by decide) h (rsqnRes_normalised even lo hi le gt)

end Sys2Proof.Proofs.ScalarRoutines

namespace Sys2Proof.Proofs.TrapEntry

open Machine Laws

/-! ## What a trap leaves alone -/

/-- The registers, rotation bases, pending writes and open regions of a context are as before. -/
def sameRegisters (r k : Ctx) : Prop :=
  r.keeps k [] ∧ r.gb = k.gb ∧ r.vb = k.vb ∧ r.pb = k.pb ∧ r.pend = k.pend ∧ r.regions = k.regions

theorem sameRegisters_enterTrap (k : Ctx) (cause : Nat) (addr : Word) (slot cycle : Nat) :
    sameRegisters (k.enterTrap cause addr slot cycle) k := ⟨keeps_refl k [], rfl, rfl, rfl, rfl, rfl⟩

theorem sameRegisters_doubleTrap (k : Ctx) (cause : Nat) : sameRegisters (k.doubleTrap cause) k :=
  ⟨keeps_refl k [], rfl, rfl, rfl, rfl, rfl⟩

theorem sameRegisters_haltTrap (k : Ctx) (cause : Nat) (addr : Word) (slot : Nat) :
    sameRegisters (k.haltTrap cause addr slot) k := ⟨keeps_refl k [], rfl, rfl, rfl, rfl, rfl⟩

/-- A change of one context reaches no tile. -/
theorem acc_onCtx (s : State) (c x : Nat) (f : Ctx → Ctx) : ((s.onCtx c x f).core c).acc = (s.core c).acc := by
  simp only [State.onCtx, State.setCtx, core_setCore, if_true, Core.setCtx]

theorem ctx_onCtx_self (s : State) (c x : Nat) (f : Ctx → Ctx) : (s.onCtx c x f).ctx c x = f (s.ctx c x) := by
  rw [ctx_onCtx, if_pos ⟨rfl, rfl⟩]

/-- The part of R349's last sentence that every kind of trap shares: registers, bases, tiles and memory stay. -/
theorem stays_onCtx (s : State) (c x : Nat) (f : Ctx → Ctx) (hf : sameRegisters (f (s.ctx c x)) (s.ctx c x)) :
    let u := s.onCtx c x f
    let r := f (s.ctx c x)
    let k := s.ctx c x
    r.keeps k [] ∧ r.gb = k.gb ∧ r.vb = k.vb ∧ r.pb = k.pb ∧ r.pend = k.pend ∧ r.regions = k.regions ∧
      (u.core c).acc = (s.core c).acc ∧ u.mem = s.mem := by
  obtain ⟨keeps, gb, vb, pb, pend, regions⟩ := hf
  exact ⟨keeps, gb, vb, pb, pend, regions, acc_onCtx s c x f, onCtx_mem s c x f⟩

/-! ## The halt record -/

theorem ctx_postEvent_onCtx (s : State) (c x d kind : Nat) (f : Ctx → Ctx) (ws : List Word) :
    ((s.onCtx c x f).postEvent d kind ws).ctx c x = f (s.ctx c x) := ctx_onCtx_self s c x f

/-- The change of a context leaves the die's records, and the posted one is the last. -/
theorem evWait_postEvent_onCtx (s : State) (c x d kind : Nat) (f : Ctx → Ctx) (ws : List Word) :
    (((s.onCtx c x f).postEvent d kind ws).die d).evWait = (s.die d).evWait ++ [{ kind, words := ws }] := by
  rw [State.postEvent, die_onDie, if_pos rfl, State.die, onCtx_dies, ← State.die]

/-! ## Which way a trap goes (R349, R351, R354) -/

theorem consumes_iff (cause : Nat) : consumes cause = true ↔ cause ∈ [4, 5, 10] := by
  simp only [consumes, Bool.or_eq_true, decide_eq_true_eq, List.mem_cons, List.not_mem_nil, or_false, or_assoc]

/-- The trap is the consumption of bad data inside a region. -/
def unwinds (k : Ctx) (cause : Nat) : Prop := cause ∈ [4, 5, 10] ∧ k.regions ≠ []

theorem trapCtx_eq_double {s : State} {c x cause : Nat} (addr : Word) (slot : Nat)
    (h : (s.ctx c x).trap.crit = true ∨ (s.ctx c x).trap.hdepth = 15 ∧ ¬ unwinds (s.ctx c x) cause) :
    s.trapCtx c x cause addr slot = (s.onCtx c x fun k => k.doubleTrap cause).postEvent (dieOf c) 5
      (haltRecord c x (s.ctx c x).trap.code cause true) := by
  rw [unwinds, ← consumes_iff] at h
  exact if_pos h

section
variable {s : State} {c x cause : Nat} (addr : Word) (slot : Nat) (hcrit : (s.ctx c x).trap.crit = false)
  (hunw : ¬ unwinds (s.ctx c x) cause) (hdepth : (s.ctx c x).trap.hdepth < 15)
include hcrit hunw hdepth

/-- Outside the critical window and below the greatest depth, a trap that does not unwind turns on TRVEC.EN. -/
theorem trapCtx_eq_first : s.trapCtx c x cause addr slot =
    if (s.ctx c x).trap.vecEn then s.onCtx c x fun k => k.enterTrap cause addr slot (s.core c).cycle
    else (s.onCtx c x fun k => k.haltTrap cause addr slot).postEvent (dieOf c) 5 (haltRecord c x cause 0 false) := by
  rw [unwinds, ← consumes_iff] at hunw
  have single : ¬ ((s.ctx c x).trap.crit = true ∨ (s.ctx c x).trap.hdepth = 15 ∧
      ¬ (consumes cause = true ∧ (s.ctx c x).regions ≠ [])) := by
    rw [hcrit, not_or]
    exact ⟨Bool.false_ne_true, fun ⟨deepest, _⟩ => absurd deepest (Nat.ne_of_lt hdepth)⟩
  exact (if_neg single).trans (if_neg hunw)

theorem trapCtx_eq_enter (hvec : (s.ctx c x).trap.vecEn = true) : s.trapCtx c x cause addr slot =
    s.onCtx c x fun k => k.enterTrap cause addr slot (s.core c).cycle :=
  (trapCtx_eq_first addr slot hcrit hunw hdepth).trans (if_pos hvec)

theorem trapCtx_eq_halt (hvec : (s.ctx c x).trap.vecEn = false) : s.trapCtx c x cause addr slot =
    (s.onCtx c x fun k => k.haltTrap cause addr slot).postEvent (dieOf c) 5 (haltRecord c x cause 0 false) :=
  (trapCtx_eq_first addr slot hcrit hunw hdepth).trans (if_neg (by rw [hvec]; decide))

end

/-- R249: abandoning a loop clears the exit flags only of one that is active. -/
theorem dropped_eq_abandoned (l : LoopRegs) : l.dropped = l.abandoned := by
  obtain ⟨count, sm1, act, x, exited, start, last⟩ := l
  cases act <;> rfl

/-- Settles O25: each way that a trap can go is one change of the context, which spares the registers, and for a halt a
record of kind 5. -/
theorem trapEntry : Obligations.TrapEntry := by
  unfold Obligations.TrapEntry
  intro s c x cause addr slot
  refine ⟨fun hcrit hunw hdepth hvec => ?enter, fun hdouble => ?double, fun hcrit hunw hdepth hvec => ?halt⟩
  case enter =>
    have stays := stays_onCtx s c x (·.enterTrap cause addr slot (s.core c).cycle) (sameRegisters_enterTrap _ cause addr slot _)
    dsimp only
    rw [trapCtx_eq_enter addr slot hcrit hunw hdepth hvec, ctx_onCtx_self, ← dropped_eq_abandoned]
    exact ⟨rfl, rfl, rfl, rfl, rfl, rfl, rfl, rfl, rfl, rfl, rfl, rfl, rfl, rfl, rfl, rfl, rfl, rfl, stays, hvec, rfl, rfl,
      rfl, rfl⟩
  case double =>
    have stays := stays_onCtx s c x (·.doubleTrap cause) (sameRegisters_doubleTrap _ cause)
    dsimp only
    rw [trapCtx_eq_double addr slot hdouble, ctx_postEvent_onCtx]
    exact ⟨rfl, rfl, evWait_postEvent_onCtx .., stays⟩
  case halt =>
    have stays := stays_onCtx s c x (·.haltTrap cause addr slot) (sameRegisters_haltTrap _ cause addr slot)
    dsimp only
    rw [trapCtx_eq_halt addr slot hcrit hunw hdepth hvec, ctx_postEvent_onCtx]
    exact ⟨rfl, rfl, rfl, rfl, rfl, rfl, rfl, evWait_postEvent_onCtx .., stays⟩

end Sys2Proof.Proofs.TrapEntry
